-- ==== Sys2Proof/Word.lean ====
section
/-! DEFINITION. The word types of the Jura NSC core: register words (00_scope.md R8), bytes and nibbles (R9), and
the LEN field of a command word (30_encoding.md R91). -/

namespace Sys2Proof

/-- A host-visible register and the host data bus, `REG_WIDTH` = 32 bits (00_scope.md R8). -/
abbrev Word := BitVec 32

/-- A byte: a key, a payload byte, a character or one wire byte (00_scope.md R9). -/
abbrev Byte := BitVec 8

/-- A 4-bit half of a byte (00_scope.md R9, R15). -/
abbrev Nibble := BitVec 4

/-- The LEN field of a command word, 3 bits (30_encoding.md R91). -/
abbrev Len := BitVec 3

end Sys2Proof
end

