-- ==== Sys2Proof/Syntax.lean ====
section
/-! DEFINITION. The seven commands of NSC-CMD v1 (30_encoding.md R92, R101), one constructor per row of the opcode
table. -/

namespace Sys2Proof

/-- A command with a legal OP and RSV = 0, and the LEN it carries (30_encoding.md R91). A LEN that the operation does
not accept still makes a command: "It decodes to DECCHR with LEN = 3, which rule R94 rejects with INVALID_LENGTH"
(R100). The data of a command comes from DIN, so LEN is the only field. -/
inductive Instr where
  | srst   (len : Len)
  | begin  (len : Len)
  | ldkey  (len : Len)
  | keyrec (len : Len)
  | xform  (len : Len)
  | encchr (len : Len)
  | decchr (len : Len)
  deriving DecidableEq, Repr

end Sys2Proof
end

