-- ==== Sys2Proof/WellFormed.lean ====
section
/-! DEFINITION. Well-formed commands: LEN is one the operation accepts (30_encoding.md R93, R94). -/

namespace Sys2Proof

/-- "LEN = 0 for SRST and BEGIN; LEN = 1 for LDKEY, XFORM and ENCCHR; LEN = 4 for DECCHR; any LEN for KEYREC"
(30_encoding.md R94). -/
def Instr.wellFormed : Instr → Bool
  | .srst len   => len == 0
  | .begin len  => len == 0
  | .ldkey len  => len == 1
  | .keyrec _   => true
  | .xform len  => len == 1
  | .encchr len => len == 1
  | .decchr len => len == 4

end Sys2Proof
end

