-- ==== Sys2Proof/Decode.lean ====
section
/-! DEFINITION. Decoding a command word, and the encoder beside it (30_encoding.md R90 to R95). -/

namespace Sys2Proof

/-- Why a word is no command. Both are ILLEGAL_CMD (30_encoding.md R94, R95); the order of the two checks is that of
60_exceptions.md R235. -/
inductive DecodeError where
  /-- RSV is not 0. -/
  | reservedBits
  /-- OP is 0x0 or 0x8 to 0xF. -/
  | reservedOp
  deriving DecidableEq, Repr

/-- OP, `w[3:0]` (30_encoding.md R91). -/
def opField (w : Word) : BitVec 4 := w.extractLsb' 0 4

/-- LEN, `w[6:4]` (30_encoding.md R91). -/
def lenField (w : Word) : Len := w.extractLsb' 4 3

/-- RSV, `w[31:7]` (30_encoding.md R91). -/
def rsvField (w : Word) : BitVec 25 := w.extractLsb' 7 25

/-- The operation that OP selects, with its LEN (30_encoding.md R92). -/
def selectOp (op : BitVec 4) (len : Len) : Except DecodeError Instr :=
  match op with
  | 0x1#4 => .ok (.srst len)
  | 0x2#4 => .ok (.begin len)
  | 0x3#4 => .ok (.ldkey len)
  | 0x4#4 => .ok (.keyrec len)
  | 0x5#4 => .ok (.xform len)
  | 0x6#4 => .ok (.encchr len)
  | 0x7#4 => .ok (.decchr len)
  | _     => .error .reservedOp

/-- The first two checks of 30_encoding.md R94, in order. The third, LEN, is made by the command's own meaning, since
a word with another LEN still names its operation (R100). -/
def decode (w : Word) : Except DecodeError Instr :=
  if rsvField w ≠ 0 then .error .reservedBits else selectOp (opField w) (lenField w)

/-- The OP value of a command (30_encoding.md R92). -/
def Instr.opcode : Instr → BitVec 4
  | .srst _   => 0x1
  | .begin _  => 0x2
  | .ldkey _  => 0x3
  | .keyrec _ => 0x4
  | .xform _  => 0x5
  | .encchr _ => 0x6
  | .decchr _ => 0x7

/-- The LEN a command carries. -/
def Instr.len : Instr → Len
  | .srst len   => len
  | .begin len  => len
  | .ldkey len  => len
  | .keyrec len => len
  | .xform len  => len
  | .encchr len => len
  | .decchr len => len

/-- The command word `{RSV, LEN, OP}` with RSV = 0 (30_encoding.md R90). -/
def encode (i : Instr) : Word := (0 : BitVec 25) ++ i.len ++ i.opcode

/-- The command word made of the low `nbits` bits of `w`. A host write is one whole 32-bit value (20_memory.md R65), so
bit 0 of `w` is bit 0 of the command word. -/
def tableWord (nbits w : Nat) : Word := BitVec.ofNat 32 (w % 2 ^ nbits)

/-- The instruction the decoder reads from a table row's word: none where it refuses, and none for a row wider than a
command word (log entry 20). -/
def decodeTableWord (nbits w : Nat) : Option Instr :=
  if nbits ≤ 32 then (decode (tableWord nbits w)).toOption else none

end Sys2Proof
end

