-- ==== Sys2Proof/Machine/State.lean ====
section
/-! DEFINITION. The state of one instance (10_state.md R30), the host's side of its port, and its reset value
(10_state.md R45). -/

namespace Sys2Proof.Machine

/-- The session state SESS (10_state.md R36). "The value 3 is never produced", and a model must refuse to start from
a state that holds it (93 I14): it cannot be written down here (log entry 7). -/
inductive Sess where
  | idle
  | keyed
  | failed
  deriving DecidableEq, Repr

/-- The outcome codes of 60_exceptions.md R230. Codes 7 to 15 are "never produced" (10_state.md R38) and cannot be
written down here (log entry 7). -/
inductive ErrCode where
  | ok
  | keyNotFound
  | invalidLength
  | noKey
  | keyLocked
  | sessionFailed
  | illegalCmd
  deriving DecidableEq, Repr

/-- The eight registers of the window (20_memory.md R61, R62). -/
inductive Reg where
  | cmd
  | din
  | dout
  | status
  | key
  | pos
  | trials
  | reserved
  deriving DecidableEq, Repr

/-- What the platform's bus does with a CMD write that a reset meets: "completed with BERR = 1 or is dropped, as the
platform's bus defines" (70_reset_and_hazards.md R272). -/
inductive CutFate where
  | busError
  | dropped
  deriving DecidableEq, Repr

/-- What reaches the block's ports from outside (20_memory.md R60, 70_reset_and_hazards.md R270). An access has a width
in bytes and a byte offset in the 32-byte window (log entry 21). -/
inductive HostEvent where
  /-- `HostRead(off)`, `bytes` wide. -/
  | read (bytes : Nat) (off : BitVec 5)
  /-- `HostWrite(off, v)`, `bytes` wide. -/
  | write (bytes : Nat) (off : BitVec 5) (v : Word)
  /-- RST high at an active clock edge, with no command in progress (70_reset_and_hazards.md R271). -/
  | reset
  /-- RST high while the command of word `w` runs (70_reset_and_hazards.md R272). -/
  | resetDuringCommand (w : Word) (fate : CutFate)
  deriving DecidableEq, Repr

/-- What the block drove on ACK, BERR and RDATA in the last step (70_reset_and_hazards.md R270). -/
inductive BusReply where
  /-- ACK = 0 and BERR = 0: no access was completed. -/
  | quiet
  /-- ACK = 1 for a read, with RDATA = `v`. -/
  | readData (v : Word)
  /-- ACK = 1 for a write. -/
  | written
  /-- BERR = 1. -/
  | busError
  deriving DecidableEq, Repr

/-- The block has no traps (60_exceptions.md R237): an error is an outcome in STATUS and the machine goes on, so no
step ever ends in a fault. -/
inductive Fault where
  deriving DecidableEq, Repr

/-- Why a step has no meaning. -/
inductive Refusal where
  /-- An instruction that is not modelled yet. Raised by no arm of `exec`: every command has its meaning. Safe. -/
  | notModelled (mnemonic : String)
  /-- An access that is not 32 bits wide or not at a multiple of 4: "The block does not perform it, and the model gives
  it no step: the access is refused, with no change to any state" (20_memory.md R63). Raised by `hostRead` and
  `hostWrite`, by no command. Safe: nothing is claimed of what follows. -/
  | accessNotAdmitted
  deriving DecidableEq, Repr

/-- The state of one instance (10_state.md R30), and the model's own fields `host` and `bus`. CMD and offset 0x1C hold
nothing (R30, R46); STATUS is the view `statusWord` of `sess`, `err` and `errcode` (R37); T1 and T2 are the constants
`table1` and `table2` (R42). -/
structure State where
  /-- DIN, the operand of the next command (10_state.md R32). -/
  din : Word
  /-- DOUT, the result of the last command that produced one (10_state.md R33). -/
  dout : Word
  /-- STATUS.SESS (10_state.md R36). -/
  sess : Sess
  /-- STATUS.ERR, sticky (10_state.md R39). -/
  err : Bool
  /-- STATUS.ERRCODE, the outcome of the most recent command (10_state.md R38). -/
  errcode : ErrCode
  /-- KEY[7:0], the session key (10_state.md R35). -/
  key : Byte
  /-- POS, the CipherPosition (10_state.md R34). -/
  pos : Word
  /-- TRIALS[8:0], candidates tried by the last KEYREC (10_state.md R40). -/
  trials : BitVec 9
  /-- MODEL's own: what the host and the reset port will do next, first event first. It is the environment's input and
  no storage of the block (log entry 1). -/
  host : List HostEvent
  /-- MODEL's own: the output ports after the last step (log entry 2). -/
  bus : BusReply
  deriving DecidableEq, Repr

/-- The machine right after reset (10_state.md R45). No host event is waiting and nothing is on the bus: these two are
the model's own (log entries 1, 2 and 10). -/
def State.reset : State where
  din := 0x00000000
  dout := 0x00000000
  sess := .idle
  err := false
  errcode := .ok
  key := 0x00
  pos := 0x00000000
  trials := 0x000
  host := []
  bus := .quiet

end Sys2Proof.Machine
end

