-- ==== Sys2Proof/Machine/Flags.lean ====
section
/-! DEFINITION. STATUS and its fields (10_state.md R36 to R39, 60_exceptions.md R230). There are no arithmetic flags
(30_encoding.md R102). -/

namespace Sys2Proof.Machine

/-- The value of SESS (10_state.md R36). -/
def Sess.code : Sess → BitVec 2
  | .idle   => 0
  | .keyed  => 1
  | .failed => 2

/-- The value of ERRCODE (60_exceptions.md R230). -/
def ErrCode.code : ErrCode → BitVec 4
  | .ok            => 0
  | .keyNotFound   => 1
  | .invalidLength => 2
  | .noKey         => 3
  | .keyLocked     => 4
  | .sessionFailed => 5
  | .illegalCmd    => 6

/-- STATUS: ERRCODE in bits 7:4, bit 3 reserved, ERR in bit 2, SESS in bits 1:0, bits 31:8 reserved (10_state.md R37). -/
def statusWord (s : State) : Word :=
  (0 : BitVec 24) ++ s.errcode.code ++ (0 : BitVec 1) ++ BitVec.ofBool s.err ++ s.sess.code

end Sys2Proof.Machine
end

