-- ==== Sys2Proof/Machine/Operands.lean ====
section
/-! DEFINITION. Operand assembly (30_encoding.md R97), the LEN check (R94) and the bit fields of bytes and words. No
operand is sign-extended. -/

namespace Sys2Proof.Machine

/-- DIN[7:0], the operand of LDKEY, KEYREC, XFORM and ENCCHR; DIN[31:8] is ignored (10_state.md R32). -/
def byteOperand (s : State) : Byte := s.din.extractLsb' 0 8

/-- DIN[31:0], the WireChar operand of DECCHR (10_state.md R32). -/
def wireOperand (s : State) : Word := s.din

/-- LEN is the one an operation requires (30_encoding.md R93, R94). -/
def lenIs (required len : Len) : Bool := len == required

/-- `zext_32` of a byte (00_scope.md R13). -/
def zextByte (b : Byte) : Word := b.setWidth 32

/-- Bits 7:4 of a byte (00_scope.md R10). -/
def hiNibble (b : Byte) : Nibble := b.extractLsb' 4 4

/-- Bits 3:0 of a byte (00_scope.md R10). -/
def loNibble (b : Byte) : Nibble := b.extractLsb' 0 4

/-- Wire byte i of a register that carries a WireChar: bits `[31 - 8i : 24 - 8i]`, for i from 0 to 3 (20_memory.md R66). -/
def wireByte (w : Word) (i : Nat) : Byte := w.extractLsb' (24 - 8 * i) 8

end Sys2Proof.Machine
end

