-- ==== Sys2Proof/Machine/Ops.lean ====
section
/-! DEFINITION. The named operations over the registers, and the two ends of a command: success, and `raise Err`
(60_exceptions.md R231). The block has no memory (20_memory.md R64), no trap entry and no trap return
(60_exceptions.md R237, R238): `State.raiseErr` is the one shared operation by which a command ends in an error. -/

namespace Sys2Proof.Machine

def State.setDin (s : State) (v : Word) : State := { s with din := v }

def State.setDout (s : State) (v : Word) : State := { s with dout := v }

def State.setSess (s : State) (v : Sess) : State := { s with sess := v }

def State.setKey (s : State) (v : Byte) : State := { s with key := v }

def State.setPos (s : State) (v : Word) : State := { s with pos := v }

def State.setTrials (s : State) (v : BitVec 9) : State := { s with trials := v }

def State.setHost (s : State) (v : List HostEvent) : State := { s with host := v }

def State.setBus (s : State) (v : BusReply) : State := { s with bus := v }

/-- Clears the sticky ERR, which only reset and a successful SRST do (10_state.md R39). -/
def State.clearErr (s : State) : State := { s with err := false }

/-- The end of a successful command: `ERRCODE <- OK`; ERR is not touched (10_state.md R38, R39). -/
def State.succeed (s : State) : State := { s with errcode := .ok }

/-- `raise Err(CODE)`: `ERRCODE <- CODE` and `ERR <- 1`. The command ends at once, so a meaning applies this to the
state it had before its own writes; only KEYREC's KEY_NOT_FOUND keeps the writes its rule makes first
(60_exceptions.md R231). -/
def State.raiseErr (s : State) (code : ErrCode) : State := { s with errcode := code, err := true }

end Sys2Proof.Machine
end

