-- ==== Sys2Proof/Machine/CharCodec.lean ====
section
/-! DEFINITION. The character codec: `encodeChar`, `decodeChar`, and the commands ENCCHR and DECCHR
(42_char_codec.md). It reads and writes no cipher state (R207). -/

namespace Sys2Proof.Machine

/-- The template byte 0b01011011 (42_char_codec.md R200). -/
def templateByte : Byte := 0x5B

/-- Bit i of a byte, as a byte 0 or 1, to be shifted into place. -/
def bitAsByte (c : Byte) (i : Nat) : Byte := (BitVec.ofBool (c.getLsbD i)).setWidth 8

/-- `w_i = 0x5B | (c[2i+1] << 5) | (c[2i] << 2)` (42_char_codec.md R202). -/
def encodeWireByte (c : Byte) (i : Nat) : Byte :=
  templateByte ||| (bitAsByte c (2 * i + 1) <<< 5) ||| (bitAsByte c (2 * i) <<< 2)

/-- `{ w_0, w_1, w_2, w_3 }`, w_0 in bits 31:24 (42_char_codec.md R205, 20_memory.md R66). -/
def encodeChar (c : Byte) : Word :=
  encodeWireByte c 0 ++ encodeWireByte c 1 ++ encodeWireByte c 2 ++ encodeWireByte c 3

/-- The two payload bits `{ w_i[5], w_i[2] }` of a wire byte (42_char_codec.md R203). -/
def payloadBits (b : Byte) : BitVec 2 := BitVec.ofBool (b.getLsbD 5) ++ BitVec.ofBool (b.getLsbD 2)

/-- `{ w_3[5], w_3[2], w_2[5], ..., w_0[2] }` (42_char_codec.md R203). The other bits are not read (R211). -/
def decodeChar (w : Word) : Byte :=
  payloadBits (wireByte w 3) ++ payloadBits (wireByte w 2) ++ payloadBits (wireByte w 1) ++ payloadBits (wireByte w 0)

/-- ENCCHR: encode one character into a WireChar (42_char_codec.md R205). It runs in every session state. -/
def execEncchr (len : Len) (s : State) : Host.Outcome State Fault Refusal :=
  .next (if lenIs 1 len then (s.setDout (encodeChar (byteOperand s))).succeed else s.raiseErr .invalidLength)

/-- DECCHR: decode a WireChar into one character (42_char_codec.md R210). It runs in every session state. -/
def execDecchr (len : Len) (s : State) : Host.Outcome State Fault Refusal :=
  .next (if lenIs 4 len then (s.setDout (zextByte (decodeChar (wireOperand s)))).succeed
    else s.raiseErr .invalidLength)

end Sys2Proof.Machine
end

