-- ==== Sys2Proof/Machine/Cipher.lean ====
section
/-! DEFINITION. The cipher unit: the tables, `shuffle`, `transformByte`, and the commands BEGIN and XFORM
(40_cipher.md). -/

namespace Sys2Proof.Machine

/-- Table1 (40_cipher.md R120). -/
def table1 : List Nibble := [14, 4, 3, 2, 1, 13, 8, 11, 6, 15, 12, 7, 10, 5, 0, 9]

/-- Table2 (40_cipher.md R120). -/
def table2 : List Nibble := [10, 6, 13, 12, 14, 11, 1, 9, 15, 7, 0, 5, 3, 2, 4, 8]

/-- `T[i]`, for an index i in 0 to 15 (00_scope.md R13). -/
def lookup (table : List Nibble) (i : Nat) : Nibble := table.getD i 0

/-- `x mod 256 mod 16`, floored (00_scope.md R12): `%` on `Int` is the Euclidean remainder, never negative here. -/
def wrapNibble (x : Int) : Nat := (x % 256 % 16).toNat

/-- The nibble function, on mathematical integers, as 40_cipher.md R123 writes it. The position is the source's
unbounded index (R122). -/
def shuffle (n : Nibble) (p : Nat) (H L : Nibble) : Nibble :=
  let aux : Int := (p >>> 4 : Nat) % 256
  let t1 := lookup table1 (wrapNibble (n.toNat + p + H.toNat))
  let t2 := lookup table2 (wrapNibble (t1.toNat + L.toNat + aux - p - H.toNat))
  let t3 := lookup table1 (wrapNibble (t2.toNat + H.toNat + p - L.toNat - aux))
  BitVec.ofNat 4 (wrapNibble (t3.toNat - p - H.toNat))

/-- The byte function: the high nibble at position p, the low nibble at p + 1 (40_cipher.md R126). -/
def transformByte (b : Byte) (p : Nat) (K : Byte) : Byte :=
  shuffle (hiNibble b) p (hiNibble K) (loNibble K) ++ shuffle (loNibble b) (p + 1) (hiNibble K) (loNibble K)

/-- The source's transform of a payload: the byte at index i at positions 2i and 2i + 1 (40_cipher.md R129). -/
def payloadTransform (payload : List Byte) (K : Byte) : List Byte :=
  payload.mapIdx fun i b => transformByte b (2 * i) K

/-- BEGIN: start a payload (40_cipher.md R130). It runs in every session state. -/
def execBegin (len : Len) (s : State) : Host.Outcome State Fault Refusal :=
  .next (if lenIs 0 len then (s.setPos 0).succeed else s.raiseErr .invalidLength)

/-- The successful effect of XFORM (40_cipher.md R131). -/
def xformEffect (s : State) : State :=
  ((s.setDout (zextByte (transformByte (byteOperand s) s.pos.toNat s.key))).setPos (s.pos + 2)).succeed

/-- XFORM: transform one byte, encode or decode (40_cipher.md R131). -/
def execXform (len : Len) (s : State) : Host.Outcome State Fault Refusal :=
  .next (if lenIs 1 len then
      match s.sess with
      | .failed => s.raiseErr .sessionFailed
      | .idle   => s.raiseErr .noKey
      | .keyed  => xformEffect s
    else s.raiseErr .invalidLength)

end Sys2Proof.Machine
end

