-- ==== Sys2Proof/Machine/SessionKey.lean ====
section
/-! DEFINITION. The session key: the recovery search, and the commands KEYREC, LDKEY and SRST (41_session_key.md). -/

namespace Sys2Proof.Machine

/-- The 256 candidates 0x00 to 0xFF, ascending (00_scope.md R9, 41_session_key.md R162). -/
def candidates : List Byte := (List.range 256).map (BitVec.ofNat 8)

/-- One trial on the first payload byte: "transformByte(b0, 0, c) == c" (41_session_key.md R165). -/
def passes (b0 c : Byte) : Bool := transformByte b0 0 c == c

/-- The least candidate that passes, or none (41_session_key.md R165, R167). -/
def searchKey (b0 : Byte) : Option Byte := candidates.find? (passes b0)

/-- `E(c)`, the one first byte that candidate c passes (41_session_key.md R163). -/
def checkMap (c : Byte) : Byte := transformByte c 0 c

/-- The source's `recoverKey` over a whole first payload (41_session_key.md R162). KEYREC does not use it: the block is
given the first byte alone (R163). -/
def recoverKey (payload : List Byte) : Option Byte :=
  candidates.find? fun c => (payloadTransform payload c).head? == some c

/-- SRST: end the current session and start a new one (41_session_key.md R175). DIN and DOUT stay. -/
def execSrst (len : Len) (s : State) : Host.Outcome State Fault Refusal :=
  .next (if lenIs 0 len then
      (((((s.setKey 0).setSess .idle).setPos 0).setTrials 0).clearErr).succeed
    else s.raiseErr .invalidLength)

/-- LDKEY: load the session key (41_session_key.md R170). -/
def execLdkey (len : Len) (s : State) : Host.Outcome State Fault Refusal :=
  .next (if lenIs 1 len then
      match s.sess with
      | .failed => s.raiseErr .sessionFailed
      | .keyed  => s.raiseErr .keyLocked
      | .idle   => ((s.setKey (byteOperand s)).setSess .keyed).succeed
    else s.raiseErr .invalidLength)

/-- KEYREC's success with key c: KEY, SESS, DOUT and TRIALS (41_session_key.md R165). -/
def keyFound (c : Byte) (s : State) : State :=
  ((((s.setKey c).setSess .keyed).setDout (zextByte c)).setTrials (c.setWidth 9 + 1)).succeed

/-- KEYREC's KEY_NOT_FOUND after `n` trials: the writes of TRIALS and SESS are kept despite the raise
(41_session_key.md R165, 60_exceptions.md R231). -/
def keyNotFound (n : BitVec 9) (s : State) : State :=
  ((s.setTrials n).setSess .failed).raiseErr .keyNotFound

/-- KEYREC: recover the session key from the first payload's first byte (41_session_key.md R165). Every LEN is
accepted; 0 means that the first payload is empty. -/
def execKeyrec (len : Len) (s : State) : Host.Outcome State Fault Refusal :=
  .next (match s.sess with
    | .failed => s.raiseErr .sessionFailed
    | .keyed  => s.raiseErr .keyLocked
    | .idle   =>
      if len = 0 then keyNotFound 0 s
      else
        match searchKey (byteOperand s) with
        | some c => keyFound c s
        | none   => keyNotFound 256 s)

end Sys2Proof.Machine
end

