-- ==== Sys2Proof/Machine/Dispatch.lean ====
section
/-! DEFINITION. One arm per command of NSC-CMD v1 (30_encoding.md R92). -/

namespace Sys2Proof.Machine

def exec (i : Instr) (s : State) : Host.Outcome State Fault Refusal :=
  match i with
  | .srst len => Sys2Proof.Machine.execSrst len s
  | .begin len => Sys2Proof.Machine.execBegin len s
  | .ldkey len => Sys2Proof.Machine.execLdkey len s
  | .keyrec len => Sys2Proof.Machine.execKeyrec len s
  | .xform len => Sys2Proof.Machine.execXform len s
  | .encchr len => Sys2Proof.Machine.execEncchr len s
  | .decchr len => Sys2Proof.Machine.execDecchr len s

end Sys2Proof.Machine
end

