-- ==== Sys2Proof/Machine/Port.lean ====
section
/-! DEFINITION. The register port: the window, the admitted accesses, HostRead and HostWrite, the CMD write, and the
reset port (20_memory.md R60 to R70, 70_reset_and_hazards.md R270 to R272). -/

namespace Sys2Proof.Machine

/-- The byte offset of a register (10_state.md R30). -/
def Reg.offset : Reg → BitVec 5
  | .cmd      => 0x00
  | .din      => 0x04
  | .dout     => 0x08
  | .status   => 0x0C
  | .key      => 0x10
  | .pos      => 0x14
  | .trials   => 0x18
  | .reserved => 0x1C

/-- The ADDR port, `off[4:2]`: the block decodes no other bits (20_memory.md R61, 70_reset_and_hazards.md R270). -/
def addrPort (off : BitVec 5) : BitVec 3 := off.extractLsb' 2 3

/-- The register that an offset selects (20_memory.md R62). -/
def regAt (off : BitVec 5) : Reg :=
  match addrPort off with
  | 0#3 => .cmd
  | 1#3 => .din
  | 2#3 => .dout
  | 3#3 => .status
  | 4#3 => .key
  | 5#3 => .pos
  | 6#3 => .trials
  | _   => .reserved

/-- "The only admitted access is a 32-bit access whose offset is a multiple of 4" (20_memory.md R63): the SIZE_OK port. -/
def admitted (bytes : Nat) (off : BitVec 5) : Bool := bytes == 4 && off.extractLsb' 0 2 == 0

/-- What HostRead returns (20_memory.md R62). -/
def readReg (r : Reg) (s : State) : Word :=
  match r with
  | .cmd      => 0
  | .din      => s.din
  | .dout     => s.dout
  | .status   => statusWord s
  | .key      => zextByte s.key
  | .pos      => s.pos
  | .trials   => s.trials.setWidth 32
  | .reserved => 0

/-- A command word written to CMD: decoded, then executed; a word that is no command ends in ILLEGAL_CMD and has no
other effect (30_encoding.md R94, R95). -/
def commandWrite (w : Word) (s : State) : Host.Outcome State Fault Refusal :=
  match decode w with
  | .ok i    => exec i s
  | .error _ => .next (s.raiseErr .illegalCmd)

/-- What HostWrite does (20_memory.md R62): a write to a read-only or reserved register is ignored. -/
def writeReg (r : Reg) (v : Word) (s : State) : Host.Outcome State Fault Refusal :=
  match r with
  | .cmd      => commandWrite v s
  | .din      => .next (s.setDin v)
  | .dout     => .next s
  | .status   => .next s
  | .key      => .next s
  | .pos      => .next s
  | .trials   => .next s
  | .reserved => .next s

/-- The bus answer to a write, given once its effects are complete (20_memory.md R70). -/
def acknowledge (o : Host.Outcome State Fault Refusal) : Host.Outcome State Fault Refusal :=
  match o with
  | .next t    => .next (t.setBus .written)
  | .fault r   => .fault r
  | .refused r => .refused r

/-- `HostRead(off)`: no side effect on the block (20_memory.md R68), refused unless admitted (R63). -/
def hostRead (bytes : Nat) (off : BitVec 5) (s : State) : Host.Outcome State Fault Refusal :=
  if admitted bytes off then .next (s.setBus (.readData (readReg (regAt off) s))) else .refused .accessNotAdmitted

/-- `HostWrite(off, v)`, refused unless admitted (20_memory.md R62, R63). -/
def hostWrite (bytes : Nat) (off : BitVec 5) (v : Word) (s : State) : Host.Outcome State Fault Refusal :=
  if admitted bytes off then acknowledge (writeReg (regAt off) v s) else .refused .accessNotAdmitted

/-- Hardware reset: every register at its reset value (70_reset_and_hazards.md R271). What the host does next is not
the block's, and stays. -/
def hardwareReset (s : State) : State := State.reset.setHost s.host

/-- The bus answer to the CMD write that a reset met (70_reset_and_hazards.md R272). -/
def CutFate.reply : CutFate → BusReply
  | .busError => .busError
  | .dropped  => .quiet

/-- One event at the block's ports. A command that a reset meets "leaves no effect", as if its write had never happened
(70_reset_and_hazards.md R272). -/
def perform (ev : HostEvent) (s : State) : Host.Outcome State Fault Refusal :=
  match ev with
  | .read bytes off            => hostRead bytes off s
  | .write bytes off v         => hostWrite bytes off v s
  | .reset                     => .next (hardwareReset s)
  | .resetDuringCommand _ fate => .next ((hardwareReset s).setBus fate.reply)

/-- One step: the next event, or, with no access requested, the state held with a quiet bus (20_memory.md R60,
60_exceptions.md R244). -/
def stepHost (s : State) : Host.Outcome State Fault Refusal :=
  match s.host with
  | []         => .next (s.setBus .quiet)
  | ev :: rest => perform ev (s.setHost rest)

/-- The host access that starts a command: `HostWrite(0x00, w)` (30_encoding.md R90). -/
def commandEvent (w : Word) : HostEvent := .write 4 Reg.cmd.offset w

end Sys2Proof.Machine
end

