-- ==== Sys2Proof/Machine/Step.lean ====
section
/-! DEFINITION. One step of the machine: one host access, or a reset (20_memory.md R60). -/

namespace Sys2Proof.Machine

def step (s : State) : Host.Outcome State Fault Refusal := stepHost s

/-- The block fetches nothing (20_memory.md R74): a command comes in a CMD write. This is `s` with the write of that
command word as the host's very next access (log entry 4). -/
def State.withFetchWord (s : State) (nbits w : Nat) : State :=
  s.setHost (commandEvent (tableWord nbits w) :: s.host)

end Sys2Proof.Machine
end

