-- ==== Sys2Proof/Machine/HostProgram.lean ====
section
/-! DEFINITION. The spec's host-program statements and pseudo-instructions (30_encoding.md R98, R99), as data, and the
host events they stand for. They are notation for accesses: the block sees the accesses alone. Reading program text is
left out (log entry 22). -/

namespace Sys2Proof.Machine

/-- A command statement's MNEMONIC (30_encoding.md R92), with the two pseudo names of XFORM (R99). -/
inductive Mnemonic where
  | srst
  | begin
  | ldkey
  | keyrec
  | xform
  | encchr
  | decchr
  | encb
  | decb
  deriving DecidableEq, Repr

/-- One statement (30_encoding.md R98). -/
inductive Stmt where
  /-- `wr REG, v` -/
  | wr (r : Reg) (v : Word)
  /-- `rd REG` -/
  | rd (r : Reg)
  /-- `MNEMONIC`, or `MNEMONIC len=N` -/
  | cmd (m : Mnemonic) (len : Option Len)
  deriving DecidableEq, Repr

/-- The command of a mnemonic with a LEN; ENCB and DECB are XFORM (30_encoding.md R99). -/
def Mnemonic.instr (m : Mnemonic) (len : Len) : Instr :=
  match m with
  | .srst   => .srst len
  | .begin  => .begin len
  | .ldkey  => .ldkey len
  | .keyrec => .keyrec len
  | .xform  => .xform len
  | .encchr => .encchr len
  | .decchr => .decchr len
  | .encb   => .xform len
  | .decb   => .xform len

/-- N when `len=` is omitted: "the required LEN of rule R92, and N = 1 for KEYREC" (30_encoding.md R98). -/
def Mnemonic.defaultLen : Mnemonic → Len
  | .srst   => 0
  | .begin  => 0
  | .ldkey  => 1
  | .keyrec => 1
  | .xform  => 1
  | .encchr => 1
  | .decchr => 4
  | .encb   => 1
  | .decb   => 1

/-- The access a statement stands for (30_encoding.md R98). -/
def Stmt.event : Stmt → HostEvent
  | .wr r v    => .write 4 r.offset v
  | .rd r      => .read 4 r.offset
  | .cmd m len => commandEvent (encode (m.instr (len.getD m.defaultLen)))

/-- `xf b` (30_encoding.md R99). -/
def xf (b : Byte) : List Stmt := [.wr .din (zextByte b), .cmd .xform none, .rd .dout]

/-- `recover b` (30_encoding.md R99). -/
def recover (b : Byte) : List Stmt := [.wr .din (zextByte b), .cmd .keyrec none, .rd .status, .rd .key]

/-- `encc c` (30_encoding.md R99). -/
def encc (c : Byte) : List Stmt := [.wr .din (zextByte c), .cmd .encchr none, .rd .dout]

/-- `decc w` (30_encoding.md R99). -/
def decc (w : Word) : List Stmt := [.wr .din w, .cmd .decchr none, .rd .dout]

/-- The accesses of a list of statements, in order. -/
def events (p : List Stmt) : List HostEvent := p.map Stmt.event

end Sys2Proof.Machine
end

