-- ==== Sys2Proof/Config.lean ====
section
/-! DEFINITION. What the platform fixes for one instance (00_scope.md R8). `REG_WIDTH` and `POS_WIDTH` are the fixed
width of `Word`. `NUM_INSTANCES` is the length of `Machine.Platform.blocks`. `T_CMD` is timing only and no rule reads
it (70_reset_and_hazards.md R283, log entry 11). The spec leaves no value open that the block computes, so there is no
free value. -/

namespace Sys2Proof.Config

/-- `BASE`, the host address of offset 0x00, held as the multiple of 32 that it is (00_scope.md R8, 20_memory.md R61),
so that an unaligned window cannot be written down. Its value is the platform's: every statement holds for every value. -/
structure Base where
  index : Nat
  deriving DecidableEq, Repr

end Sys2Proof.Config
end

