-- ==== Sys2Proof/Machine/Platform.lean ====
section
/-! DEFINITION. Several independent instances on one host bus (60_exceptions.md R252) and the window of each
(20_memory.md R61). The machine of `core` is one instance; this file says how a host address reaches it. -/

namespace Sys2Proof.Machine

/-- One instance at its BASE. -/
structure Placed where
  base : Config.Base
  state : State
  deriving DecidableEq, Repr

/-- `NUM_INSTANCES` is the length of the list. -/
structure Platform where
  blocks : List Placed
  deriving DecidableEq, Repr

/-- An access on the host's bus, at a host address (log entry 13). -/
inductive BusAccess where
  | read (bytes addr : Nat)
  | write (bytes addr : Nat) (v : Word)
  deriving DecidableEq, Repr

/-- The windows of a platform do not overlap: aligned windows overlap only where their bases are equal. -/
def Platform.wf (p : Platform) : Bool := (p.blocks.map (·.base)).Nodup

/-- BASE as a host address, a multiple of 32 (20_memory.md R61). -/
def baseAddr (b : Config.Base) : Nat := 32 * b.index

def BusAccess.addr : BusAccess → Nat
  | .read _ a    => a
  | .write _ a _ => a

/-- The offset of a host address in a window: "Addresses outside `[BASE, BASE + 0x1F]` do not reach the block"
(20_memory.md R61). -/
def offsetIn (b : Config.Base) (addr : Nat) : Option (BitVec 5) :=
  if baseAddr b ≤ addr ∧ addr ≤ baseAddr b + 0x1F then some (BitVec.ofNat 5 (addr - baseAddr b)) else none

/-- The access as the block's port sees it. -/
def BusAccess.event (a : BusAccess) (off : BitVec 5) : HostEvent :=
  match a with
  | .read bytes _    => .read bytes off
  | .write bytes _ v => .write bytes off v

/-- One access performed by one block. A refused access changes no register, and BERR is signalled (20_memory.md R63). -/
def State.serve (s : State) (ev : HostEvent) : State :=
  match step (s.setHost (ev :: s.host)) with
  | .next t    => t
  | .fault _   => s
  | .refused _ => s.setBus .busError

/-- One access on the bus, at one block of the platform: a block whose window does not hold the address is not reached. -/
def Placed.access (b : Placed) (a : BusAccess) : Placed :=
  match offsetIn b.base a.addr with
  | some off => { b with state := b.state.serve (a.event off) }
  | none     => b

/-- One access on the host's bus. -/
def Platform.access (p : Platform) (a : BusAccess) : Platform := { p with blocks := p.blocks.map (·.access a) }

/-- The reset of one instance, the `n`th: each has "its own reset" (60_exceptions.md R252). -/
def Platform.resetBlock (p : Platform) (n : Nat) : Platform :=
  { p with blocks := p.blocks.modify n fun b => { b with state := hardwareReset b.state } }

end Sys2Proof.Machine
end

