-- ==== Sys2Proof/Safety.lean ====
section
/-! DEFINITION. What the spec promises of every reachable state (10_state.md R44), and what a run that never stops
asks of the host (20_memory.md R63). -/

namespace Sys2Proof.Safety

open Sys2Proof.Machine

/-- RDATA, where the step completed a read (70_reset_and_hazards.md R270). -/
def readValue : BusReply → List Word
  | .quiet      => []
  | .readData v => [v]
  | .written    => []
  | .busError   => []

/-- The invariants of 10_state.md R44, in its order; "SESS is never 3" holds by the type `Sess`. -/
abbrev Inv (s : State) : Prop :=
  (s.sess ≠ .keyed → s.key = 0) ∧
  s.pos.toNat % 2 = 0 ∧
  s.trials.toNat ≤ 256 ∧
  (s.errcode ≠ .ok → s.err = true) ∧
  (s.sess = .failed → s.err = true) ∧
  (s.sess = .idle → s.trials = 0)

/-- The event is one the block gives a step to: a reset, or an admitted access (20_memory.md R63). -/
def eventAdmitted : HostEvent → Bool
  | .read bytes off         => admitted bytes off
  | .write bytes off _      => admitted bytes off
  | .reset                  => true
  | .resetDuringCommand _ _ => true

/-- The values the host reads in the next k steps, in order. -/
def readsSeen : Nat → State → List Word
  | 0, _ => []
  | k + 1, s =>
    match step s with
    | .next t    => readValue t.bus ++ readsSeen k t
    | .fault _   => []
    | .refused _ => []

/-- A host that issues admitted accesses only: no step of the machine is then refused. -/
def hostAdmitted (s : State) : Bool := s.host.all eventAdmitted

end Sys2Proof.Safety
end

