-- ==== Sys2Proof/Certificates/Slice0/Obligations.lean ====
section
/-! DEFINITION. The statements about the model, each from the rules of spec/ it names. The helpers of
`Sys2Proof.Claims` spell the spec's own arithmetic on plain numbers, apart from the model's functions. -/

namespace Sys2Proof.Claims

open Sys2Proof.Machine

/-- RSV, LEN and OP of a command word as numbers (30_encoding.md R91). -/
def rsvOf (w : Word) : Nat := w.toNat / 128
def lenOf (w : Word) : Nat := w.toNat / 16 % 8
def opOf (w : Word) : Nat := w.toNat % 16

/-- "LEN = 0 for SRST and BEGIN; LEN = 1 for LDKEY, XFORM and ENCCHR; LEN = 4 for DECCHR; any LEN for KEYREC"
(30_encoding.md R94), by OP value. -/
def accepts (op len : Nat) : Prop :=
  ((op = 1 ∨ op = 2) → len = 0) ∧ ((op = 3 ∨ op = 5 ∨ op = 6) → len = 1) ∧ (op = 7 → len = 4)

/-- The whole effect of a command that ends in an error (60_exceptions.md R231). -/
def errored (s : State) (c : ErrCode) : State := { s with errcode := c, err := true }

/-- DIN[7:0] (30_encoding.md R97). -/
def lowByte (s : State) : Byte := BitVec.ofNat 8 (s.din.toNat % 256)

/-- A byte zero-extended to a register (00_scope.md R13). -/
def zext (b : Byte) : Word := BitVec.ofNat 32 b.toNat

/-- Bit k of a value, as a number. -/
def bit {n : Nat} (v : BitVec n) (k : Nat) : Nat := v.toNat / 2 ^ k % 2

/-- Wire byte i of the encoding of c, as 42_char_codec.md R202 writes it. -/
def wireAt (c : Byte) (i : Nat) : Byte :=
  BitVec.ofNat 8 (0x5B ||| (bit c (2 * i + 1) <<< 5) ||| (bit c (2 * i) <<< 2))

/-- The 32-bit wire word `{ w_0, w_1, w_2, w_3 }` (20_memory.md R66). -/
def wireWord (c : Byte) : Word := wireAt c 0 ++ wireAt c 1 ++ wireAt c 2 ++ wireAt c 3

/-- The character of a wire word, as 42_char_codec.md R203 writes it: bit k of w_i is bit 24 - 8i + k of the word. -/
def charNat (w : Word) : Nat :=
  bit w 5 * 128 + bit w 2 * 64 + bit w 13 * 32 + bit w 10 * 16 + bit w 21 * 8 + bit w 18 * 4 + bit w 29 * 2 + bit w 26

/-- STATUS as a number (10_state.md R37). -/
def statusNat (s : State) : Nat :=
  (match s.sess with | .idle => 0 | .keyed => 1 | .failed => 2) + (if s.err then 4 else 0) +
  16 * (match s.errcode with
    | .ok => 0 | .keyNotFound => 1 | .invalidLength => 2 | .noKey => 3 | .keyLocked => 4 | .sessionFailed => 5
    | .illegalCmd => 6)

/-- Every register of the block is the reset value of 10_state.md R45. -/
def atReset (t : State) : Prop :=
  t.din = 0 ∧ t.dout = 0 ∧ t.sess = .idle ∧ t.err = false ∧ t.errcode = .ok ∧ t.key = 0 ∧ t.pos = 0 ∧ t.trials = 0

/-- The next event at the ports is a reset. -/
def nextIsReset (s : State) : Prop :=
  ∃ rest, s.host = .reset :: rest ∨ ∃ w fate, s.host = .resetDuringCommand w fate :: rest

/-- The next event is the host's write of `w` to CMD. -/
def nextIsCmdWrite (s : State) (w : Word) : Prop := ∃ rest, s.host = .write 4 0 w :: rest

/-- The next event is the write of the command `i`. -/
def nextIsCommand (s : State) (i : Instr) : Prop := nextIsCmdWrite s (encode i)

/-- The outcome of a command word, by the order of 60_exceptions.md R235 and the causes of R230: `found` says whether
some candidate passes DIN[7:0]. -/
def outcome (w : Word) (sess : Sess) (found : Bool) : ErrCode :=
  if rsvOf w ≠ 0 then .illegalCmd
  else if opOf w = 0 ∨ 8 ≤ opOf w then .illegalCmd
  else if (opOf w = 1 ∨ opOf w = 2) ∧ lenOf w ≠ 0 then .invalidLength
  else if (opOf w = 3 ∨ opOf w = 5 ∨ opOf w = 6) ∧ lenOf w ≠ 1 then .invalidLength
  else if opOf w = 7 ∧ lenOf w ≠ 4 then .invalidLength
  else if (opOf w = 3 ∨ opOf w = 4 ∨ opOf w = 5) ∧ sess = .failed then .sessionFailed
  else if (opOf w = 3 ∨ opOf w = 4) ∧ sess = .keyed then .keyLocked
  else if opOf w = 5 ∧ sess = .idle then .noKey
  else if opOf w = 4 ∧ (lenOf w = 0 ∨ found = false) then .keyNotFound
  else .ok

/-- Some candidate passes the first payload byte b (41_session_key.md R162). -/
def someKeyPasses (b : Byte) : Bool := candidates.any fun c => transformByte b 0 c == c

/-- The 4-bit datapath of 40_cipher.md R124: every sum is modulo 16. -/
def datapath (n P A H L : Nibble) : Nibble :=
  let t1 := lookup table1 (n + P + H).toNat
  let t2 := lookup table2 (t1 + L + A - P - H).toNat
  let t3 := lookup table1 (t2 + H + P - L - A).toNat
  t3 - P - H

/-- How many candidates pass the first byte b (41_session_key.md R163, R164). -/
def passCount (b : Byte) : Nat := (candidates.map checkMap).count b

end Sys2Proof.Claims

open Sys2Proof Sys2Proof.Machine Sys2Proof.Claims

/-! ### Encoding and decoding -/

/-- 30_encoding.md R90 to R92 and R94: a word decodes to a command exactly when it is that command's own word, for
every command with every LEN. -/
def Obligations.DecodeInvertsEncode : Prop :=
  ∀ (w : Word) (i : Instr), decode w = .ok i ↔ w = encode i

/-- 30_encoding.md R92: the opcode map, with the canonical words, the required LEN and the reserved OP values. -/
def Obligations.OpcodeMapAndCanonicalWords : Prop :=
  (decode 0x00000001 = .ok (.srst 0) ∧ decode 0x00000002 = .ok (.begin 0) ∧ decode 0x00000013 = .ok (.ldkey 1) ∧
    decode 0x00000014 = .ok (.keyrec 1) ∧ decode 0x00000004 = .ok (.keyrec 0) ∧ decode 0x00000015 = .ok (.xform 1) ∧
    decode 0x00000016 = .ok (.encchr 1) ∧ decode 0x00000047 = .ok (.decchr 4)) ∧
  (∀ i : Instr, opOf (encode i) = (match i with
    | .srst _ => 1 | .begin _ => 2 | .ldkey _ => 3 | .keyrec _ => 4 | .xform _ => 5 | .encchr _ => 6 | .decchr _ => 7)) ∧
  (∀ i : Instr, i.wellFormed = true ↔ accepts (opOf (encode i)) (lenOf (encode i))) ∧
  (∀ (w : Word) (i : Instr), opOf w = 0 ∨ 8 ≤ opOf w → decode w ≠ .ok i)

/-- 30_encoding.md R100: the worked encodings, bit by bit, and how the two malformed words end. -/
def Obligations.WorkedEncodings : Prop :=
  decode 0b00000000000000000000000000010101#32 = .ok (.xform 1) ∧ 0b00000000000000000000000000010101#32 = (0x15 : Word) ∧
  decode 0b00000000000000000000000001000111#32 = .ok (.decchr 4) ∧ 0b00000000000000000000000001000111#32 = (0x47 : Word) ∧
  decode 0x00000037 = .ok (.decchr 3) ∧ (∀ s, commandWrite 0x00000037 s = .next (errored s .invalidLength)) ∧
  opOf 0x00000095 = 5 ∧ bit (0x00000095 : Word) 7 = 1 ∧
  (∀ s, commandWrite 0x00000095 s = .next (errored s .illegalCmd))

/-- 30_encoding.md R95: every illegal encoding ends in ILLEGAL_CMD and has no other effect. -/
def Obligations.IllegalEncodingsHaveNoOtherEffect : Prop :=
  ∀ (w : Word) (s : State), rsvOf w ≠ 0 ∨ opOf w = 0 ∨ 8 ≤ opOf w →
    commandWrite w s = .next { s with errcode := .illegalCmd, err := true }

/-- 30_encoding.md R94: the checks of a CMD write, in order, and then the rule of the operation. -/
def Obligations.CommandWriteChecksInOrder : Prop :=
  ∀ (w : Word) (s : State),
    (rsvOf w ≠ 0 → commandWrite w s = .next (errored s .illegalCmd)) ∧
    (rsvOf w = 0 → opOf w = 0 ∨ 8 ≤ opOf w → commandWrite w s = .next (errored s .illegalCmd)) ∧
    (rsvOf w = 0 → 1 ≤ opOf w → opOf w ≤ 7 → ¬ accepts (opOf w) (lenOf w) →
      commandWrite w s = .next (errored s .invalidLength)) ∧
    (rsvOf w = 0 → 1 ≤ opOf w → opOf w ≤ 7 → accepts (opOf w) (lenOf w) →
      ∃ i : Instr, encode i = w ∧ commandWrite w s = exec i s)

/-- 42_char_codec.md R206, and 30_encoding.md R94 for the other operations: a LEN that the operation does not accept
has no effect beyond ERRCODE = INVALID_LENGTH and ERR = 1. -/
def Obligations.WrongLenHasNoOtherEffect : Prop :=
  ∀ s : State,
    (∀ len : Len, len ≠ 1 → exec (.encchr len) s = .next { s with errcode := .invalidLength, err := true }) ∧
    (∀ len : Len, len ≠ 4 → exec (.decchr len) s = .next { s with errcode := .invalidLength, err := true }) ∧
    (∀ i : Instr, i.wellFormed = false → exec i s = .next { s with errcode := .invalidLength, err := true })

/-! ### The step and the register port -/

/-- 20_memory.md R60, R70, R74: where the next event is a CMD write whose word decodes to i, the step is exec of i on
the state with that event taken, and then the acknowledgement on the bus. The second part says the same of
`withFetchWord`. (`host` and `bus` are the model's own fields, log entries 1 and 2.) -/
def Obligations.StepRunsTheDecodedCommand : Prop :=
  (∀ (s : State) (rest : List HostEvent) (w : Word) (i : Instr),
    s.host = .write 4 0 w :: rest → decode w = .ok i →
    ∃ t, exec i { s with host := rest } = .next t ∧ step s = .next { t with bus := .written }) ∧
  (∀ (s : State) (nbits w : Nat) (i : Instr), decodeTableWord nbits w = some i →
    ∃ t, exec i s = .next t ∧ step (s.withFetchWord nbits w) = .next { t with bus := .written })

/-- 20_memory.md R62: what a read and a write do at each of the eight offsets. -/
def Obligations.RegisterWindow : Prop :=
  ∀ (s : State) (rest : List HostEvent),
    (∀ off : BitVec 5, s.host = .read 4 off :: rest →
      (off = 0x00 → step s = .next { s with host := rest, bus := .readData 0 }) ∧
      (off = 0x04 → step s = .next { s with host := rest, bus := .readData s.din }) ∧
      (off = 0x08 → step s = .next { s with host := rest, bus := .readData s.dout }) ∧
      (off = 0x0C → step s = .next { s with host := rest, bus := .readData (BitVec.ofNat 32 (statusNat s)) }) ∧
      (off = 0x10 → step s = .next { s with host := rest, bus := .readData (zext s.key) }) ∧
      (off = 0x14 → step s = .next { s with host := rest, bus := .readData s.pos }) ∧
      (off = 0x18 → step s = .next { s with host := rest, bus := .readData (BitVec.ofNat 32 s.trials.toNat) }) ∧
      (off = 0x1C → step s = .next { s with host := rest, bus := .readData 0 })) ∧
    (∀ (off : BitVec 5) (v : Word), s.host = .write 4 off v :: rest →
      (off = 0x00 → ∃ t, commandWrite v { s with host := rest } = .next t ∧ step s = .next { t with bus := .written }) ∧
      (off = 0x04 → step s = .next { s with din := v, host := rest, bus := .written }) ∧
      (off = 0x08 ∨ off = 0x0C ∨ off = 0x10 ∨ off = 0x14 ∨ off = 0x18 ∨ off = 0x1C →
        step s = .next { s with host := rest, bus := .written }))

/-- 20_memory.md R68, its sentence on reads: a register read any number of times gives the same value each time and
changes nothing of the block. -/
def Obligations.RepeatedReadsAgree : Prop :=
  ∀ (r : Reg) (k : Nat) (s : State) (rest : List HostEvent),
    s.host = List.replicate k (.read 4 r.offset) ++ rest →
    Safety.readsSeen k s = List.replicate k (readReg r s) ∧
    ∃ b, core.run k s = .next { s with host := rest, bus := b }

/-- 20_memory.md R63: an access is refused exactly when it is not a 32-bit access at a multiple of 4, and on a platform
BERR is signalled and nothing else changes. -/
def Obligations.OnlyAlignedWordAccessesAdmitted : Prop :=
  (∀ (s : State) (rest : List HostEvent) (bytes : Nat) (off : BitVec 5), s.host = .read bytes off :: rest →
    (step s = .refused .accessNotAdmitted ↔ ¬ (bytes = 4 ∧ off.toNat % 4 = 0))) ∧
  (∀ (s : State) (rest : List HostEvent) (bytes : Nat) (off : BitVec 5) (v : Word), s.host = .write bytes off v :: rest →
    (step s = .refused .accessNotAdmitted ↔ ¬ (bytes = 4 ∧ off.toNat % 4 = 0))) ∧
  (∀ (s : State) (bytes : Nat) (off : BitVec 5) (v : Word), ¬ (bytes = 4 ∧ off.toNat % 4 = 0) →
    s.serve (.read bytes off) = { s with bus := .busError } ∧
    s.serve (.write bytes off v) = { s with bus := .busError })

/-- 20_memory.md R63, R70, 60_exceptions.md R237 and R244: a host that issues admitted accesses only is never stopped,
however long it runs. For k beyond the number of events to come, this rests on the idle step, which holds the state as
R244 says, and whose existence is the model's choice (log entry 3). -/
def Obligations.AdmittedRunsNeverStop : Prop :=
  ∀ (k : Nat) (s : State), Safety.hostAdmitted s = true → ∃ t, core.run k s = .next t ∧ Safety.hostAdmitted t = true

/-- 60_exceptions.md R244: with no access requested the block holds its state. (That such a step exists is the model's
choice, log entry 3.) -/
def Obligations.QuietStepHoldsState : Prop :=
  ∀ s : State, s.host = [] → step s = .next { s with bus := .quiet }

/-- 10_state.md R37: the layout of STATUS, its reset value, and that host writes to it are ignored. -/
def Obligations.StatusLayout : Prop :=
  (∀ s : State, (readReg .status s).toNat =
    (match s.sess with | .idle => 0 | .keyed => 1 | .failed => 2) + (if s.err then 4 else 0) +
    16 * (match s.errcode with
      | .ok => 0 | .keyNotFound => 1 | .invalidLength => 2 | .noKey => 3 | .keyLocked => 4 | .sessionFailed => 5
      | .illegalCmd => 6)) ∧
  (∀ s : State, bit (readReg .status s) 3 = 0 ∧ (readReg .status s).toNat / 256 = 0) ∧
  readReg .status State.reset = 0 ∧
  (∀ (v : Word) (s : State), writeReg .status v s = .next s)

/-! ### Reset -/

/-- 10_state.md R45: the reset values, and the constant contents of the tables. -/
def Obligations.ResetValues : Prop :=
  readReg .din State.reset = 0 ∧ readReg .dout State.reset = 0 ∧ readReg .status State.reset = 0 ∧
  readReg .key State.reset = 0 ∧ readReg .pos State.reset = 0 ∧ readReg .trials State.reset = 0 ∧
  State.reset.sess = .idle ∧ State.reset.err = false ∧ State.reset.errcode = .ok ∧
  table1.map BitVec.toNat = [14, 4, 3, 2, 1, 13, 8, 11, 6, 15, 12, 7, 10, 5, 0, 9] ∧
  table2.map BitVec.toNat = [10, 6, 13, 12, 14, 11, 1, 9, 15, 7, 0, 5, 3, 2, 4, 8]

/-- 70_reset_and_hazards.md R271: a reset step takes every register to its reset value, from every state, with a command
in progress (which is abandoned) or without. -/
def Obligations.ResetSetsEveryRegister : Prop :=
  (∀ s : State, nextIsReset s → ∃ t, step s = .next t ∧ atReset t) ∧
  (∀ (s : State) (rest : List HostEvent), s.host = .reset :: rest → ∃ t, step s = .next t ∧ atReset t ∧ t.host = rest)

/-- 70_reset_and_hazards.md R272: a reset that meets a command wins, whatever the command and whatever the bus then
does: the state is the reset state either way, and the bus answers BERR or nothing. -/
def Obligations.ResetDuringCommandWins : Prop :=
  ∀ (s : State) (rest : List HostEvent) (w : Word) (fate : CutFate), s.host = .resetDuringCommand w fate :: rest →
    ∃ t, step s = .next t ∧ atReset t ∧ t.host = rest ∧
      (fate = .busError → t.bus = .busError) ∧ (fate = .dropped → t.bus = .quiet)

/-! ### The commands: effect, errors and frame. Each right side is the whole next state. -/

/-- 41_session_key.md R175 and 70_reset_and_hazards.md R273: SRST in every session state, another LEN, SRST twice, and
SRST against hardware reset. -/
def Obligations.SrstStartsANewSession : Prop :=
  ∀ s : State,
    exec (.srst 0) s =
      .next { s with key := 0, sess := .idle, pos := 0, trials := 0, err := false, errcode := .ok } ∧
    (∀ len : Len, len ≠ 0 → exec (.srst len) s = .next (errored s .invalidLength)) ∧
    (∃ t, exec (.srst 0) s = .next t ∧ exec (.srst 0) t = .next t ∧ readReg .status t = 0) ∧
    exec (.srst 0) s = .next { hardwareReset s with din := s.din, dout := s.dout, bus := s.bus }

/-- 40_cipher.md R130: BEGIN in every session state, and another LEN. -/
def Obligations.BeginZeroesPosition : Prop :=
  ∀ s : State,
    exec (.begin 0) s = .next { s with pos := 0, errcode := .ok } ∧
    (∀ len : Len, len ≠ 0 → exec (.begin len) s = .next (errored s .invalidLength))

/-- 41_session_key.md R170: LDKEY in each session state, and another LEN. -/
def Obligations.LdkeyLoadsTheKey : Prop :=
  ∀ s : State,
    (s.sess = .idle → exec (.ldkey 1) s = .next { s with key := lowByte s, sess := .keyed, errcode := .ok }) ∧
    (s.sess = .failed → exec (.ldkey 1) s = .next (errored s .sessionFailed)) ∧
    (s.sess = .keyed → exec (.ldkey 1) s = .next (errored s .keyLocked)) ∧
    (∀ len : Len, len ≠ 1 → exec (.ldkey len) s = .next (errored s .invalidLength))

/-- 41_session_key.md R165: KEYREC in each session state, with an empty payload, with a least passing candidate, and
with none; and the corner cases and the example of the rule. -/
def Obligations.KeyrecRecoversTheLeastKey : Prop :=
  ∀ (len : Len) (s : State),
    (s.sess = .failed → exec (.keyrec len) s = .next (errored s .sessionFailed)) ∧
    (s.sess = .keyed → exec (.keyrec len) s = .next (errored s .keyLocked)) ∧
    (s.sess = .idle → len = 0 →
      exec (.keyrec len) s = .next (errored { s with trials := 0, sess := .failed } .keyNotFound)) ∧
    (∀ c : Byte, s.sess = .idle → len ≠ 0 → transformByte (lowByte s) 0 c = c →
      (∀ d : Byte, d.toNat < c.toNat → transformByte (lowByte s) 0 d ≠ d) →
      exec (.keyrec len) s = .next { s with
        key := c, sess := .keyed, dout := zext c, trials := BitVec.ofNat 9 (c.toNat + 1), errcode := .ok }) ∧
    (s.sess = .idle → len ≠ 0 → (∀ c : Byte, transformByte (lowByte s) 0 c ≠ c) →
      exec (.keyrec len) s = .next (errored { s with trials := 256, sess := .failed } .keyNotFound)) ∧
    (∀ q ∈ [(0x14, 0x00), (0x5a, 0xd9), (0xf9, 0x5a)], s.sess = .idle → len ≠ 0 → lowByte s = BitVec.ofNat 8 q.1 →
      exec (.keyrec len) s = .next { s with
        key := BitVec.ofNat 8 q.2, sess := .keyed, dout := BitVec.ofNat 32 q.2, trials := BitVec.ofNat 9 (q.2 + 1),
        errcode := .ok }) ∧
    (s.sess = .idle → len ≠ 0 → lowByte s = 0x00 →
      exec (.keyrec len) s = .next (errored { s with trials := 256, sess := .failed } .keyNotFound))

/-- 40_cipher.md R131: XFORM in each session state, and another LEN; then the corner cases of the rule: only POS mod 256
matters to the byte, the operand never comes back, the result transformed at the same position is the operand, and the
example. -/
def Obligations.XformTransformsOneByte : Prop :=
  ∀ s : State,
    (s.sess = .keyed → exec (.xform 1) s = .next { s with
      dout := zext (transformByte (lowByte s) s.pos.toNat s.key),
      pos := s.pos + 2, errcode := .ok }) ∧
    (s.sess = .failed → exec (.xform 1) s = .next (errored s .sessionFailed)) ∧
    (s.sess = .idle → exec (.xform 1) s = .next (errored s .noKey)) ∧
    (∀ len : Len, len ≠ 1 → exec (.xform len) s = .next (errored s .invalidLength)) ∧
    (∀ p : Word, s.sess = .keyed → p.toNat % 256 = s.pos.toNat % 256 →
      ∃ t u, exec (.xform 1) s = .next t ∧ exec (.xform 1) { s with pos := p } = .next u ∧ u.dout = t.dout) ∧
    (s.sess = .keyed → ∃ t u, exec (.xform 1) s = .next t ∧ t.dout ≠ zext (lowByte s) ∧
      exec (.xform 1) { t with din := t.dout, pos := s.pos } = .next u ∧ u.dout = zext (lowByte s)) ∧
    (s.sess = .keyed → s.key = 0x5a → s.pos = 0 → s.din = 0x0000005a →
      exec (.xform 1) s = .next { s with dout := 0x000000f9, pos := 2, errcode := .ok })

/-- 42_char_codec.md R205: ENCCHR in every session state, and another LEN. -/
def Obligations.EncchrEncodesOneCharacter : Prop :=
  ∀ s : State,
    exec (.encchr 1) s = .next { s with dout := wireWord (lowByte s), errcode := .ok } ∧
    (∀ len : Len, len ≠ 1 → exec (.encchr len) s = .next (errored s .invalidLength))

/-- 42_char_codec.md R210: DECCHR in every session state, and another LEN. -/
def Obligations.DecchrDecodesOneCharacter : Prop :=
  ∀ s : State,
    exec (.decchr 4) s = .next { s with dout := BitVec.ofNat 32 (charNat s.din), errcode := .ok } ∧
    (∀ len : Len, len ≠ 4 → exec (.decchr len) s = .next (errored s .invalidLength))

/-! ### Who writes what: whole-machine rules over every step -/

/-- 10_state.md R31, its sentences on DIN: DIN changes only by a host write of it or by reset, so no command writes it. -/
def Obligations.OnlyTheHostWritesDin : Prop :=
  ∀ s t : State, step s = .next t → t.din ≠ s.din →
    (nextIsReset s ∧ t.din = 0) ∨ ∃ rest, s.host = .write 4 4 t.din :: rest

/-- 10_state.md R33: what each of the four successful commands writes to DOUT, and that nothing else but a reset changes
it: no other command, no command that ends in an error, no host write. -/
def Obligations.OnlyFourCommandsWriteDout : Prop :=
  ∀ s t : State, step s = .next t →
    (nextIsCommand s (.xform 1) → t.errcode = .ok →
      t.dout = zext (transformByte (lowByte s) s.pos.toNat s.key)) ∧
    (∀ len, nextIsCommand s (.keyrec len) → t.errcode = .ok → t.dout = zext t.key) ∧
    (nextIsCommand s (.encchr 1) → t.errcode = .ok ∧ t.dout = wireWord (lowByte s)) ∧
    (nextIsCommand s (.decchr 4) → t.errcode = .ok ∧ t.dout = BitVec.ofNat 32 (charNat s.din)) ∧
    (t.dout ≠ s.dout → (nextIsReset s ∧ t.dout = 0) ∨
      (t.errcode = .ok ∧
        (nextIsCommand s (.xform 1) ∨ (∃ len, nextIsCommand s (.keyrec len)) ∨ nextIsCommand s (.encchr 1) ∨
          nextIsCommand s (.decchr 4))))

/-- 10_state.md R34: what reset, SRST, BEGIN and XFORM write to POS, with the wrap modulo 2^32, and that every other step
leaves it; the host reads it whole. -/
def Obligations.OnlyResetSrstBeginXformWritePos : Prop :=
  (∀ s t : State, step s = .next t →
    (nextIsReset s ∨ nextIsCommand s (.srst 0) ∨ nextIsCommand s (.begin 0) → t.pos = 0) ∧
    (nextIsCommand s (.xform 1) → s.sess = .keyed → t.pos.toNat = (s.pos.toNat + 2) % 2 ^ 32) ∧
    (¬ (nextIsReset s ∨ nextIsCommand s (.srst 0) ∨ nextIsCommand s (.begin 0)) →
      ¬ (nextIsCommand s (.xform 1) ∧ s.sess = .keyed) → t.pos = s.pos)) ∧
  (∀ s : State, readReg .pos s = s.pos)

/-- 10_state.md R35: what LDKEY, a successful KEYREC, SRST and reset write to KEY, and that nothing else changes it; that
a keyed session keeps its key until SRST or reset; and that KEY[31:8] reads as 0. -/
def Obligations.KeyIsImmutableInASession : Prop :=
  (∀ s t : State, step s = .next t →
    (nextIsReset s ∨ nextIsCommand s (.srst 0) → t.key = 0) ∧
    (nextIsCommand s (.ldkey 1) → s.sess = .idle → t.key = lowByte s ∧ t.sess = .keyed) ∧
    (∀ len, nextIsCommand s (.keyrec len) → t.errcode = .ok →
      transformByte (lowByte s) 0 t.key = t.key ∧ t.sess = .keyed) ∧
    (t.key ≠ s.key → nextIsReset s ∨ nextIsCommand s (.srst 0) ∨
      (s.sess = .idle ∧ t.errcode = .ok ∧ (nextIsCommand s (.ldkey 1) ∨ ∃ len, nextIsCommand s (.keyrec len)))) ∧
    (s.sess = .keyed → (t.key = s.key ∧ t.sess = .keyed) ∨ nextIsReset s ∨ nextIsCommand s (.srst 0))) ∧
  (∀ s : State, (readReg .key s).toNat = s.key.toNat)

/-- 10_state.md R36: the values of SESS, the three transitions, and that no others exist. -/
def Obligations.SessionTransitions : Prop :=
  (∀ s t : State, step s = .next t →
    (nextIsReset s ∨ nextIsCommand s (.srst 0) → t.sess = .idle) ∧
    (s.sess = .idle → nextIsCommand s (.ldkey 1) → t.errcode = .ok ∧ t.sess = .keyed) ∧
    (∀ len, s.sess = .idle → nextIsCommand s (.keyrec len) →
      (t.errcode = .ok ∧ t.sess = .keyed) ∨ (t.errcode = .keyNotFound ∧ t.sess = .failed)) ∧
    (t.sess ≠ s.sess → nextIsReset s ∨ nextIsCommand s (.srst 0) ∨
      (s.sess = .idle ∧ (nextIsCommand s (.ldkey 1) ∨ ∃ len, nextIsCommand s (.keyrec len))))) ∧
  Sess.idle.code = 0 ∧ Sess.keyed.code = 1 ∧ Sess.failed.code = 2 ∧
  (∀ s : State, (readReg .status s).toNat % 4 ≠ 3)

/-- 10_state.md R38: every CMD write sets ERRCODE to its outcome (by 60_exceptions.md R230 and R235), so the old value
never matters to it; nothing but a CMD write and reset changes it; and codes 7 to 15 do not occur. -/
def Obligations.EveryCommandWritesErrcode : Prop :=
  (∀ (w : Word) (s : State), ∃ t, commandWrite w s = .next t ∧
    t.errcode = outcome w s.sess (someKeyPasses (lowByte s)) ∧
    ∀ e : ErrCode, commandWrite w { s with errcode := e } = .next t) ∧
  (∀ s t : State, step s = .next t → t.errcode ≠ s.errcode →
    (nextIsReset s ∧ t.errcode = .ok) ∨ ∃ w, nextIsCmdWrite s w) ∧
  (∀ s t : State, step s = .next t → nextIsReset s → t.errcode = .ok) ∧
  ErrCode.ok.code = 0 ∧ (∀ s : State, (readReg .status s).toNat / 16 % 16 ≤ 6)

/-- 10_state.md R39: ERR is set by every CMD write that ends with a nonzero ERRCODE and by nothing else, and is cleared
by reset and by a successful SRST and by nothing else. -/
def Obligations.ErrIsSticky : Prop :=
  ∀ s t : State, step s = .next t →
    (∀ w, nextIsCmdWrite s w → t.errcode ≠ .ok → t.err = true) ∧
    (nextIsReset s ∨ nextIsCommand s (.srst 0) → t.err = false) ∧
    (s.err = false → t.err = true → t.errcode ≠ .ok ∧ ∃ w, nextIsCmdWrite s w) ∧
    (s.err = true → t.err = false → nextIsReset s ∨ nextIsCommand s (.srst 0))

/-- 10_state.md R40: what KEYREC, SRST and reset write to TRIALS, that nothing else changes it, and that TRIALS[31:9]
reads 0. -/
def Obligations.OnlyKeyrecSrstResetWriteTrials : Prop :=
  (∀ s t : State, step s = .next t →
    (nextIsReset s ∨ nextIsCommand s (.srst 0) → t.trials = 0) ∧
    (∀ len, nextIsCommand s (.keyrec len) → s.sess = .idle →
      (t.errcode = .ok → t.trials.toNat = t.key.toNat + 1) ∧
      (t.errcode ≠ .ok → t.trials.toNat = if len = 0 then 0 else 256)) ∧
    (t.trials ≠ s.trials → nextIsReset s ∨ nextIsCommand s (.srst 0) ∨
      (s.sess = .idle ∧ ∃ len, nextIsCommand s (.keyrec len)))) ∧
  (∀ s : State, (readReg .trials s).toNat = s.trials.toNat)

/-- 60_exceptions.md R231: an error outcome changes ERRCODE and ERR alone, but for KEYREC's KEY_NOT_FOUND, which keeps
the SESS and TRIALS writes of its rule: FAILED, and 0 for an empty payload or 256. -/
def Obligations.ErrorsLeaveNoPartialResult : Prop :=
  ∀ (w : Word) (s t : State), commandWrite w s = .next t → t.errcode ≠ .ok →
    (t.errcode ≠ .keyNotFound ∧ t = { s with errcode := t.errcode, err := true }) ∨
    (∃ len, w = encode (.keyrec len) ∧
      t = { s with errcode := .keyNotFound, err := true, sess := .failed, trials := if len = 0 then 0 else 256 })

/-- 60_exceptions.md R235: every command word ends in exactly one outcome, the first that applies; and `XFORM len=2` in
an idle session reports INVALID_LENGTH. -/
def Obligations.OneOutcomeByPriority : Prop :=
  (∀ (w : Word) (s : State), ∃ t, commandWrite w s = .next t ∧
    t.errcode = outcome w s.sess (someKeyPasses (lowByte s)) ∧
    t.din = s.din ∧ t.host = s.host ∧ t.bus = s.bus) ∧
  (∀ s : State, s.sess = .idle → commandWrite 0x00000025 s = .next (errored s .invalidLength))

/-- 10_state.md R44: every step keeps the invariants, from every state that meets them, and SESS never reads as 3. -/
def Obligations.StepKeepsTheInvariants : Prop :=
  ∀ s t : State, Safety.Inv s → step s = .next t → Safety.Inv t ∧ (readReg .status t).toNat % 4 ≠ 3

/-- 10_state.md R44: the reset state meets the invariants, whatever the host does next. -/
def Obligations.ResetMeetsTheInvariants : Prop :=
  ∀ h : List HostEvent, Safety.Inv { State.reset with host := h }

/-- 41_session_key.md R171: in a keyed session LDKEY and KEYREC raise KEY_LOCKED and change nothing else; so the key is
set at most once a session: no step of a keyed session changes it, unless the step ends the session. -/
def Obligations.KeyedSessionIsLocked : Prop :=
  ∀ s : State, s.sess = .keyed →
    exec (.ldkey 1) s = .next { s with errcode := .keyLocked, err := true } ∧
    (∀ len : Len, exec (.keyrec len) s = .next { s with errcode := .keyLocked, err := true }) ∧
    (∀ t : State, step s = .next t → ¬ (nextIsReset s ∨ nextIsCommand s (.srst 0)) → t.key = s.key ∧ t.sess = .keyed)

/-- 41_session_key.md R168: KEY_NOT_FOUND fails the session and sets no key; then XFORM, LDKEY and KEYREC raise
SESSION_FAILED, while ENCCHR, DECCHR and BEGIN run, and only SRST and reset leave that state. -/
def Obligations.KeyNotFoundFailsTheSession : Prop :=
  (∀ (len : Len) (s t : State), exec (.keyrec len) s = .next t → t.errcode = .keyNotFound →
    t.sess = .failed ∧ t.err = true ∧ t.key = s.key ∧ (readReg .status t).toNat = 0x16) ∧
  (∀ s : State, s.sess = .failed →
    exec (.xform 1) s = .next (errored s .sessionFailed) ∧ exec (.ldkey 1) s = .next (errored s .sessionFailed) ∧
    (∀ len : Len, exec (.keyrec len) s = .next (errored s .sessionFailed)) ∧
    (∀ i : Instr, i = .encchr 1 ∨ i = .decchr 4 ∨ i = .begin 0 →
      ∃ t, exec i s = .next t ∧ t.errcode = .ok ∧ t.sess = .failed)) ∧
  (∀ s t : State, s.sess = .failed → step s = .next t → t.sess ≠ .failed → nextIsReset s ∨ nextIsCommand s (.srst 0))

/-! ### What a command can depend on -/

/-- 10_state.md R32 and 30_encoding.md R97: LDKEY, KEYREC, XFORM and ENCCHR read DIN[7:0] only, and SRST and BEGIN do
not read DIN. -/
def Obligations.UpperDinIsIgnored : Prop :=
  (∀ (len : Len) (i : Instr) (s : State) (d : Word),
    i = .ldkey len ∨ i = .keyrec len ∨ i = .xform len ∨ i = .encchr len → d.toNat % 256 = s.din.toNat % 256 →
    ∃ t, exec i s = .next t ∧ exec i { s with din := d } = .next { t with din := d }) ∧
  (∀ (len : Len) (i : Instr) (s : State) (d : Word), i = .srst len ∨ i = .begin len →
    ∃ t, exec i s = .next t ∧ exec i { s with din := d } = .next { t with din := d })

/-- 41_session_key.md R166: KEYREC never reads or writes POS, and its trials are at positions 0 and 1: the key it finds
maps the first payload byte to itself there. -/
def Obligations.KeyrecIgnoresPosition : Prop :=
  ∀ (len : Len) (s : State) (p : Word),
    ∃ t, exec (.keyrec len) s = .next t ∧ t.pos = s.pos ∧
      (t.errcode = .ok → transformByte (lowByte s) 0 t.key = t.key) ∧
      exec (.keyrec len) { s with pos := p } = .next { t with pos := p }

/-- 42_char_codec.md R207: the codec never reads KEY, POS or SESS and never writes them, and runs in every session. -/
def Obligations.CodecIsIndependentOfTheCipher : Prop :=
  ∀ (len : Len) (i : Instr) (s : State) (k : Byte) (p : Word) (x : Sess), i = .encchr len ∨ i = .decchr len →
    ∃ t, exec i s = .next t ∧ t.key = s.key ∧ t.pos = s.pos ∧ t.sess = s.sess ∧
      exec i { s with key := k, pos := p, sess := x } = .next { t with key := k, pos := p, sess := x }

/-! ### The cipher -/

/-- 40_cipher.md R121: both tables are involutions without fixed points, with the pairs the rule lists. -/
def Obligations.TablesAreInvolutions : Prop :=
  (∀ i : Nat, i < 16 →
    (lookup table1 (lookup table1 i).toNat).toNat = i ∧ (lookup table1 i).toNat ≠ i ∧
    (lookup table2 (lookup table2 i).toNat).toNat = i ∧ (lookup table2 i).toNat ≠ i) ∧
  (∀ q ∈ [(0, 14), (1, 4), (2, 3), (5, 13), (6, 8), (7, 11), (9, 15), (10, 12)],
    (lookup table1 q.1).toNat = q.2 ∧ (lookup table1 q.2).toNat = q.1) ∧
  (∀ q ∈ [(0, 10), (1, 6), (2, 13), (3, 12), (4, 14), (5, 11), (7, 9), (8, 15)],
    (lookup table2 q.1).toNat = q.2 ∧ (lookup table2 q.2).toNat = q.1)

/-- 40_cipher.md R123: `shuffle` by the rule's own integers, with the tables of R120 written out. -/
def Obligations.ShuffleFormula : Prop :=
  ∀ (n : Nibble) (p : Nat) (H L : Nibble) (aux : Int) (t1 t2 t3 : Nibble),
    aux = ((p : Int) / 16) % 256 →
    t1 = [14, 4, 3, 2, 1, 13, 8, 11, 6, 15, 12, 7, 10, 5, 0, 9].getD
      (((n.toNat + p + H.toNat : Int) % 256) % 16).toNat 0 →
    t2 = [10, 6, 13, 12, 14, 11, 1, 9, 15, 7, 0, 5, 3, 2, 4, 8].getD
      (((t1.toNat + L.toNat + aux - p - H.toNat : Int) % 256) % 16).toNat 0 →
    t3 = [14, 4, 3, 2, 1, 13, 8, 11, 6, 15, 12, 7, 10, 5, 0, 9].getD
      (((t2.toNat + H.toNat + p - L.toNat - aux : Int) % 256) % 16).toNat 0 →
    ((shuffle n p H L).toNat : Int) = ((t3.toNat - p - H.toNat : Int) % 256) % 16

/-- 40_cipher.md R124: `shuffle` equals the 4-bit datapath with P = p[3:0] and A = p[7:4]. -/
def Obligations.ShuffleIsTheNibbleDatapath : Prop :=
  ∀ (n : Nibble) (p : Nat) (H L : Nibble),
    shuffle n p H L = datapath n (BitVec.ofNat 4 p) (BitVec.ofNat 4 (p / 16)) H L

/-- 40_cipher.md R125: `shuffle` depends on the position only through bits 7:0, each of those bits matters, and a
32-bit position gives the results of the unbounded one. -/
def Obligations.ShuffleUsesEightPositionBits : Prop :=
  (∀ (n : Nibble) (p : Nat) (H L : Nibble), shuffle n p H L = shuffle n (p % 256) H L) ∧
  (∀ k : Nat, k < 8 → ∃ (n H L : Nibble) (p : Nat), p < 256 ∧ shuffle n p H L ≠ shuffle n (p ^^^ 2 ^ k) H L) ∧
  (∀ (n : Nibble) (p : Nat) (H L : Nibble), shuffle n (p % 2 ^ 32) H L = shuffle n p H L)

/-- 40_cipher.md R126: the two nibbles of `transformByte`. -/
def Obligations.TransformByteNibbles : Prop :=
  ∀ (b : Byte) (p : Nat) (K : Byte) (H L : Nibble), H.toNat = K.toNat / 16 → L.toNat = K.toNat % 16 →
    (transformByte b p K).toNat =
      (shuffle (BitVec.ofNat 4 (b.toNat / 16)) p H L).toNat * 16 +
      (shuffle (BitVec.ofNat 4 (b.toNat % 16)) (p + 1) H L).toNat

/-- 40_cipher.md R127: at every position and key, `shuffle` is an involution without fixed points, `transformByte`
undoes itself, and both nibbles always change. -/
def Obligations.CipherIsAnInvolutionWithoutFixedPoints : Prop :=
  (∀ (n : Nibble) (p : Nat) (H L : Nibble),
    shuffle (shuffle n p H L) p H L = n ∧ shuffle n p H L ≠ n) ∧
  (∀ (b : Byte) (p : Nat) (K : Byte),
    transformByte (transformByte b p K) p K = b ∧
    (transformByte b p K).toNat / 16 ≠ b.toNat / 16 ∧ (transformByte b p K).toNat % 16 ≠ b.toNat % 16 ∧
    transformByte b p K ≠ b)

/-- 40_cipher.md R129: BEGIN, then for each byte in order DIN, XFORM and a read of DOUT, gives the host the source's
transform of the payload, for every payload and from every keyed state. -/
def Obligations.PayloadTransformByCommands : Prop :=
  ∀ (s : State) (payload : List Byte) (rest : List HostEvent), s.sess = .keyed →
    s.host = events (.cmd .begin none :: payload.flatMap xf) ++ rest →
    Safety.readsSeen (1 + 3 * payload.length) s = (payloadTransform payload s.key).map zext ∧
    ∃ t, core.run (1 + 3 * payload.length) s = .next t ∧ t.host = rest ∧ t.key = s.key ∧ t.sess = .keyed ∧
      t.pos.toNat = 2 * payload.length % 2 ^ 32 ∧
      payloadTransform payload s.key = (List.range payload.length).map
        (fun i => transformByte (payload.getD i 0) (2 * i) s.key)

/-- 40_cipher.md R128 with R127: one function serves both directions, so a payload transformed twice is itself. -/
def Obligations.PayloadRoundTrip : Prop :=
  ∀ (payload : List Byte) (K : Byte), payloadTransform (payloadTransform payload K) K = payload

/-! ### Key recovery -/

/-- 41_session_key.md R163: recovery depends on the first byte alone, and is the least c with E(c) = b_0. -/
def Obligations.RecoveryDependsOnTheFirstByte : Prop :=
  recoverKey [] = none ∧
  (∀ b c : Byte, transformByte b 0 c = c ↔ b = transformByte c 0 c) ∧
  (∀ (b : Byte) (payload : List Byte) (c : Byte), recoverKey (b :: payload) = some c ↔
    transformByte c 0 c = b ∧ ∀ d : Byte, d.toNat < c.toNat → transformByte d 0 d ≠ b) ∧
  (∀ (b : Byte) (payload : List Byte), recoverKey (b :: payload) = none ↔ ∀ c : Byte, transformByte c 0 c ≠ b)

/-- 41_session_key.md R162, R163, R165: KEYREC, given only the first byte and whether the payload is empty, ends as the
source's search over the whole payload ends. -/
def Obligations.KeyrecRefinesRecoverKey : Prop :=
  ∀ (s : State) (len : Len) (payload : List Byte), s.sess = .idle → (len = 0 ↔ payload = []) →
    (∀ b ∈ payload.head?, lowByte s = b) →
    ∃ t, exec (.keyrec len) s = .next t ∧
      (∀ c, recoverKey payload = some c → t.sess = .keyed ∧ t.errcode = .ok ∧ t.key = c ∧ t.dout = zext c) ∧
      (recoverKey payload = none →
        t.sess = .failed ∧ t.errcode = .keyNotFound ∧ t.key = s.key ∧ t.dout = s.dout)

/-- 41_session_key.md R164: the counts, the examples of keys that share a first byte, and what KEYREC then does. -/
def Obligations.CheckMapIsNotOneToOne : Prop :=
  (candidates.map checkMap).dedup.length = 160 ∧
  (candidates.filter fun b => passCount b == 0).length = 96 ∧
  (candidates.filter fun b => passCount b == 1).length = 84 ∧
  (candidates.filter fun b => passCount b == 2).length = 56 ∧
  (candidates.filter fun b => passCount b == 3).length = 20 ∧
  (∀ (s : State) (len : Len), s.sess = .idle → len ≠ 0 → passCount (lowByte s) = 0 →
    ∃ t, exec (.keyrec len) s = .next t ∧ t.errcode = .keyNotFound) ∧
  passCount 0x00 = 0 ∧
  (passCount 0x14 = 3 ∧ checkMap 0x00 = 0x14 ∧ checkMap 0x07 = 0x14 ∧ checkMap 0x4a = 0x14 ∧ searchKey 0x14 = some 0x00) ∧
  (passCount 0x3d = 3 ∧ checkMap 0x17 = 0x3d ∧ checkMap 0x54 = 0x3d ∧ checkMap 0xef = 0x3d ∧ searchKey 0x3d = some 0x17)

/-! ### The codec -/

/-- 42_char_codec.md R204: the round trip, the template of every encoded byte, and the words the other round trip
holds for. -/
def Obligations.CodecLaws : Prop :=
  (∀ c : Byte, decodeChar (encodeChar c) = c) ∧
  (∀ (c : Byte) (i : Nat), i < 4 → wireByte (encodeChar c) i &&& ~~~0x24#8 = 0x5B#8) ∧
  (∀ w : Word, encodeChar (decodeChar w) = w → ∀ i : Nat, i < 4 → wireByte w i &&& ~~~0x24#8 = 0x5B#8) ∧
  (∀ w : Word, (∀ i : Nat, i < 4 → wireByte w i &&& ~~~0x24#8 = 0x5B#8) → encodeChar (decodeChar w) = w) ∧
  decodeChar 0xFFFFFFFF = 0xFF ∧ encodeChar 0xFF = 0x7F7F7F7F

/-- 42_char_codec.md R211: the non-payload bits of a wire word never matter and never raise an error. -/
def Obligations.TemplateBitsAreNotChecked : Prop :=
  ∀ (s : State) (w : Word), w &&& 0x24242424 = s.din &&& 0x24242424 →
    ∃ t, exec (.decchr 4) s = .next t ∧ t.errcode = .ok ∧ t.err = s.err ∧
      exec (.decchr 4) { s with din := w } = .next { t with din := w }

/-! ### Host programs and several instances -/

/-- 30_encoding.md R99: what each pseudo-instruction expands to. -/
def Obligations.PseudoInstructionExpansions : Prop :=
  (Stmt.cmd .encb none).event = .write 4 0x00 0x00000015 ∧ (Stmt.cmd .decb none).event = .write 4 0x00 0x00000015 ∧
  (∀ b : Byte, events (xf b) = [.write 4 0x04 (zext b), .write 4 0x00 0x00000015, .read 4 0x08]) ∧
  (∀ b : Byte, events (recover b) =
    [.write 4 0x04 (zext b), .write 4 0x00 0x00000014, .read 4 0x0C, .read 4 0x10]) ∧
  (∀ c : Byte, events (encc c) = [.write 4 0x04 (zext c), .write 4 0x00 0x00000016, .read 4 0x08]) ∧
  (∀ w : Word, events (decc w) = [.write 4 0x04 w, .write 4 0x00 0x00000047, .read 4 0x08])

/-- 20_memory.md R61 and 60_exceptions.md R252: an access reaches at most one block, the one whose window
[BASE, BASE + 0x1F] holds its address, and leaves every other block exactly as it was. (Host addresses are unbounded
numbers in the model, log entry 13.) -/
def Obligations.InstancesShareNothing : Prop :=
  ∀ (p : Platform) (a : BusAccess) (n : Nat) (b : Placed), p.blocks[n]? = some b →
    (¬ (32 * b.base.index ≤ a.addr ∧ a.addr ≤ 32 * b.base.index + 31) → (p.access a).blocks[n]? = some b) ∧
    (∀ off : Nat, off ≤ 31 → a.addr = 32 * b.base.index + off →
      (p.access a).blocks[n]? = some { b with state := b.state.serve (a.event (BitVec.ofNat 5 off)) } ∧
      (p.wf = true → ∀ (m : Nat) (d : Placed), m ≠ n → p.blocks[m]? = some d → (p.access a).blocks[m]? = some d)) ∧
    (∀ (m : Nat) (d : Placed), m ≠ n → p.blocks[m]? = some d → (p.resetBlock n).blocks[m]? = some d)
end

