-- ==== Sys2Proof/Laws/State.lean ====
section
/-! SUPPORT. What each named update of the state does to each field, and the same for the effects that are built of
several updates. -/

namespace Sys2Proof.Machine

@[simp] theorem State.setDin_din (s : State) (v : Word) : (s.setDin v).din = v := rfl
@[simp] theorem State.setDin_dout (s : State) (v : Word) : (s.setDin v).dout = s.dout := rfl
@[simp] theorem State.setDin_sess (s : State) (v : Word) : (s.setDin v).sess = s.sess := rfl
@[simp] theorem State.setDin_err (s : State) (v : Word) : (s.setDin v).err = s.err := rfl
@[simp] theorem State.setDin_errcode (s : State) (v : Word) : (s.setDin v).errcode = s.errcode := rfl
@[simp] theorem State.setDin_key (s : State) (v : Word) : (s.setDin v).key = s.key := rfl
@[simp] theorem State.setDin_pos (s : State) (v : Word) : (s.setDin v).pos = s.pos := rfl
@[simp] theorem State.setDin_trials (s : State) (v : Word) : (s.setDin v).trials = s.trials := rfl
@[simp] theorem State.setDin_host (s : State) (v : Word) : (s.setDin v).host = s.host := rfl
@[simp] theorem State.setDin_bus (s : State) (v : Word) : (s.setDin v).bus = s.bus := rfl

@[simp] theorem State.setDout_din (s : State) (v : Word) : (s.setDout v).din = s.din := rfl
@[simp] theorem State.setDout_dout (s : State) (v : Word) : (s.setDout v).dout = v := rfl
@[simp] theorem State.setDout_sess (s : State) (v : Word) : (s.setDout v).sess = s.sess := rfl
@[simp] theorem State.setDout_err (s : State) (v : Word) : (s.setDout v).err = s.err := rfl
@[simp] theorem State.setDout_errcode (s : State) (v : Word) : (s.setDout v).errcode = s.errcode := rfl
@[simp] theorem State.setDout_key (s : State) (v : Word) : (s.setDout v).key = s.key := rfl
@[simp] theorem State.setDout_pos (s : State) (v : Word) : (s.setDout v).pos = s.pos := rfl
@[simp] theorem State.setDout_trials (s : State) (v : Word) : (s.setDout v).trials = s.trials := rfl
@[simp] theorem State.setDout_host (s : State) (v : Word) : (s.setDout v).host = s.host := rfl
@[simp] theorem State.setDout_bus (s : State) (v : Word) : (s.setDout v).bus = s.bus := rfl

@[simp] theorem State.setSess_din (s : State) (v : Sess) : (s.setSess v).din = s.din := rfl
@[simp] theorem State.setSess_dout (s : State) (v : Sess) : (s.setSess v).dout = s.dout := rfl
@[simp] theorem State.setSess_sess (s : State) (v : Sess) : (s.setSess v).sess = v := rfl
@[simp] theorem State.setSess_err (s : State) (v : Sess) : (s.setSess v).err = s.err := rfl
@[simp] theorem State.setSess_errcode (s : State) (v : Sess) : (s.setSess v).errcode = s.errcode := rfl
@[simp] theorem State.setSess_key (s : State) (v : Sess) : (s.setSess v).key = s.key := rfl
@[simp] theorem State.setSess_pos (s : State) (v : Sess) : (s.setSess v).pos = s.pos := rfl
@[simp] theorem State.setSess_trials (s : State) (v : Sess) : (s.setSess v).trials = s.trials := rfl
@[simp] theorem State.setSess_host (s : State) (v : Sess) : (s.setSess v).host = s.host := rfl
@[simp] theorem State.setSess_bus (s : State) (v : Sess) : (s.setSess v).bus = s.bus := rfl

@[simp] theorem State.setKey_din (s : State) (v : Byte) : (s.setKey v).din = s.din := rfl
@[simp] theorem State.setKey_dout (s : State) (v : Byte) : (s.setKey v).dout = s.dout := rfl
@[simp] theorem State.setKey_sess (s : State) (v : Byte) : (s.setKey v).sess = s.sess := rfl
@[simp] theorem State.setKey_err (s : State) (v : Byte) : (s.setKey v).err = s.err := rfl
@[simp] theorem State.setKey_errcode (s : State) (v : Byte) : (s.setKey v).errcode = s.errcode := rfl
@[simp] theorem State.setKey_key (s : State) (v : Byte) : (s.setKey v).key = v := rfl
@[simp] theorem State.setKey_pos (s : State) (v : Byte) : (s.setKey v).pos = s.pos := rfl
@[simp] theorem State.setKey_trials (s : State) (v : Byte) : (s.setKey v).trials = s.trials := rfl
@[simp] theorem State.setKey_host (s : State) (v : Byte) : (s.setKey v).host = s.host := rfl
@[simp] theorem State.setKey_bus (s : State) (v : Byte) : (s.setKey v).bus = s.bus := rfl

@[simp] theorem State.setPos_din (s : State) (v : Word) : (s.setPos v).din = s.din := rfl
@[simp] theorem State.setPos_dout (s : State) (v : Word) : (s.setPos v).dout = s.dout := rfl
@[simp] theorem State.setPos_sess (s : State) (v : Word) : (s.setPos v).sess = s.sess := rfl
@[simp] theorem State.setPos_err (s : State) (v : Word) : (s.setPos v).err = s.err := rfl
@[simp] theorem State.setPos_errcode (s : State) (v : Word) : (s.setPos v).errcode = s.errcode := rfl
@[simp] theorem State.setPos_key (s : State) (v : Word) : (s.setPos v).key = s.key := rfl
@[simp] theorem State.setPos_pos (s : State) (v : Word) : (s.setPos v).pos = v := rfl
@[simp] theorem State.setPos_trials (s : State) (v : Word) : (s.setPos v).trials = s.trials := rfl
@[simp] theorem State.setPos_host (s : State) (v : Word) : (s.setPos v).host = s.host := rfl
@[simp] theorem State.setPos_bus (s : State) (v : Word) : (s.setPos v).bus = s.bus := rfl

@[simp] theorem State.setTrials_din (s : State) (v : BitVec 9) : (s.setTrials v).din = s.din := rfl
@[simp] theorem State.setTrials_dout (s : State) (v : BitVec 9) : (s.setTrials v).dout = s.dout := rfl
@[simp] theorem State.setTrials_sess (s : State) (v : BitVec 9) : (s.setTrials v).sess = s.sess := rfl
@[simp] theorem State.setTrials_err (s : State) (v : BitVec 9) : (s.setTrials v).err = s.err := rfl
@[simp] theorem State.setTrials_errcode (s : State) (v : BitVec 9) : (s.setTrials v).errcode = s.errcode := rfl
@[simp] theorem State.setTrials_key (s : State) (v : BitVec 9) : (s.setTrials v).key = s.key := rfl
@[simp] theorem State.setTrials_pos (s : State) (v : BitVec 9) : (s.setTrials v).pos = s.pos := rfl
@[simp] theorem State.setTrials_trials (s : State) (v : BitVec 9) : (s.setTrials v).trials = v := rfl
@[simp] theorem State.setTrials_host (s : State) (v : BitVec 9) : (s.setTrials v).host = s.host := rfl
@[simp] theorem State.setTrials_bus (s : State) (v : BitVec 9) : (s.setTrials v).bus = s.bus := rfl

@[simp] theorem State.setHost_din (s : State) (v : List HostEvent) : (s.setHost v).din = s.din := rfl
@[simp] theorem State.setHost_dout (s : State) (v : List HostEvent) : (s.setHost v).dout = s.dout := rfl
@[simp] theorem State.setHost_sess (s : State) (v : List HostEvent) : (s.setHost v).sess = s.sess := rfl
@[simp] theorem State.setHost_err (s : State) (v : List HostEvent) : (s.setHost v).err = s.err := rfl
@[simp] theorem State.setHost_errcode (s : State) (v : List HostEvent) : (s.setHost v).errcode = s.errcode := rfl
@[simp] theorem State.setHost_key (s : State) (v : List HostEvent) : (s.setHost v).key = s.key := rfl
@[simp] theorem State.setHost_pos (s : State) (v : List HostEvent) : (s.setHost v).pos = s.pos := rfl
@[simp] theorem State.setHost_trials (s : State) (v : List HostEvent) : (s.setHost v).trials = s.trials := rfl
@[simp] theorem State.setHost_host (s : State) (v : List HostEvent) : (s.setHost v).host = v := rfl
@[simp] theorem State.setHost_bus (s : State) (v : List HostEvent) : (s.setHost v).bus = s.bus := rfl

@[simp] theorem State.setBus_din (s : State) (v : BusReply) : (s.setBus v).din = s.din := rfl
@[simp] theorem State.setBus_dout (s : State) (v : BusReply) : (s.setBus v).dout = s.dout := rfl
@[simp] theorem State.setBus_sess (s : State) (v : BusReply) : (s.setBus v).sess = s.sess := rfl
@[simp] theorem State.setBus_err (s : State) (v : BusReply) : (s.setBus v).err = s.err := rfl
@[simp] theorem State.setBus_errcode (s : State) (v : BusReply) : (s.setBus v).errcode = s.errcode := rfl
@[simp] theorem State.setBus_key (s : State) (v : BusReply) : (s.setBus v).key = s.key := rfl
@[simp] theorem State.setBus_pos (s : State) (v : BusReply) : (s.setBus v).pos = s.pos := rfl
@[simp] theorem State.setBus_trials (s : State) (v : BusReply) : (s.setBus v).trials = s.trials := rfl
@[simp] theorem State.setBus_host (s : State) (v : BusReply) : (s.setBus v).host = s.host := rfl
@[simp] theorem State.setBus_bus (s : State) (v : BusReply) : (s.setBus v).bus = v := rfl

@[simp] theorem State.clearErr_din (s : State) : (s.clearErr).din = s.din := rfl
@[simp] theorem State.clearErr_dout (s : State) : (s.clearErr).dout = s.dout := rfl
@[simp] theorem State.clearErr_sess (s : State) : (s.clearErr).sess = s.sess := rfl
@[simp] theorem State.clearErr_err (s : State) : (s.clearErr).err = false := rfl
@[simp] theorem State.clearErr_errcode (s : State) : (s.clearErr).errcode = s.errcode := rfl
@[simp] theorem State.clearErr_key (s : State) : (s.clearErr).key = s.key := rfl
@[simp] theorem State.clearErr_pos (s : State) : (s.clearErr).pos = s.pos := rfl
@[simp] theorem State.clearErr_trials (s : State) : (s.clearErr).trials = s.trials := rfl
@[simp] theorem State.clearErr_host (s : State) : (s.clearErr).host = s.host := rfl
@[simp] theorem State.clearErr_bus (s : State) : (s.clearErr).bus = s.bus := rfl

@[simp] theorem State.succeed_din (s : State) : (s.succeed).din = s.din := rfl
@[simp] theorem State.succeed_dout (s : State) : (s.succeed).dout = s.dout := rfl
@[simp] theorem State.succeed_sess (s : State) : (s.succeed).sess = s.sess := rfl
@[simp] theorem State.succeed_err (s : State) : (s.succeed).err = s.err := rfl
@[simp] theorem State.succeed_errcode (s : State) : (s.succeed).errcode = .ok := rfl
@[simp] theorem State.succeed_key (s : State) : (s.succeed).key = s.key := rfl
@[simp] theorem State.succeed_pos (s : State) : (s.succeed).pos = s.pos := rfl
@[simp] theorem State.succeed_trials (s : State) : (s.succeed).trials = s.trials := rfl
@[simp] theorem State.succeed_host (s : State) : (s.succeed).host = s.host := rfl
@[simp] theorem State.succeed_bus (s : State) : (s.succeed).bus = s.bus := rfl

@[simp] theorem State.raiseErr_din (s : State) (c : ErrCode) : (s.raiseErr c).din = s.din := rfl
@[simp] theorem State.raiseErr_dout (s : State) (c : ErrCode) : (s.raiseErr c).dout = s.dout := rfl
@[simp] theorem State.raiseErr_sess (s : State) (c : ErrCode) : (s.raiseErr c).sess = s.sess := rfl
@[simp] theorem State.raiseErr_err (s : State) (c : ErrCode) : (s.raiseErr c).err = true := rfl
@[simp] theorem State.raiseErr_errcode (s : State) (c : ErrCode) : (s.raiseErr c).errcode = c := rfl
@[simp] theorem State.raiseErr_key (s : State) (c : ErrCode) : (s.raiseErr c).key = s.key := rfl
@[simp] theorem State.raiseErr_pos (s : State) (c : ErrCode) : (s.raiseErr c).pos = s.pos := rfl
@[simp] theorem State.raiseErr_trials (s : State) (c : ErrCode) : (s.raiseErr c).trials = s.trials := rfl
@[simp] theorem State.raiseErr_host (s : State) (c : ErrCode) : (s.raiseErr c).host = s.host := rfl
@[simp] theorem State.raiseErr_bus (s : State) (c : ErrCode) : (s.raiseErr c).bus = s.bus := rfl

@[simp] theorem xformEffect_din (s : State) : (xformEffect s).din = s.din := rfl
@[simp] theorem xformEffect_dout (s : State) : (xformEffect s).dout = zextByte (transformByte (byteOperand s) s.pos.toNat s.key) := rfl
@[simp] theorem xformEffect_sess (s : State) : (xformEffect s).sess = s.sess := rfl
@[simp] theorem xformEffect_err (s : State) : (xformEffect s).err = s.err := rfl
@[simp] theorem xformEffect_errcode (s : State) : (xformEffect s).errcode = .ok := rfl
@[simp] theorem xformEffect_key (s : State) : (xformEffect s).key = s.key := rfl
@[simp] theorem xformEffect_pos (s : State) : (xformEffect s).pos = s.pos + 2 := rfl
@[simp] theorem xformEffect_trials (s : State) : (xformEffect s).trials = s.trials := rfl
@[simp] theorem xformEffect_host (s : State) : (xformEffect s).host = s.host := rfl
@[simp] theorem xformEffect_bus (s : State) : (xformEffect s).bus = s.bus := rfl

@[simp] theorem keyFound_din (c : Byte) (s : State) : (keyFound c s).din = s.din := rfl
@[simp] theorem keyFound_dout (c : Byte) (s : State) : (keyFound c s).dout = zextByte c := rfl
@[simp] theorem keyFound_sess (c : Byte) (s : State) : (keyFound c s).sess = .keyed := rfl
@[simp] theorem keyFound_err (c : Byte) (s : State) : (keyFound c s).err = s.err := rfl
@[simp] theorem keyFound_errcode (c : Byte) (s : State) : (keyFound c s).errcode = .ok := rfl
@[simp] theorem keyFound_key (c : Byte) (s : State) : (keyFound c s).key = c := rfl
@[simp] theorem keyFound_pos (c : Byte) (s : State) : (keyFound c s).pos = s.pos := rfl
@[simp] theorem keyFound_trials (c : Byte) (s : State) : (keyFound c s).trials = c.setWidth 9 + 1 := rfl
@[simp] theorem keyFound_host (c : Byte) (s : State) : (keyFound c s).host = s.host := rfl
@[simp] theorem keyFound_bus (c : Byte) (s : State) : (keyFound c s).bus = s.bus := rfl

@[simp] theorem keyNotFound_din (n : BitVec 9) (s : State) : (keyNotFound n s).din = s.din := rfl
@[simp] theorem keyNotFound_dout (n : BitVec 9) (s : State) : (keyNotFound n s).dout = s.dout := rfl
@[simp] theorem keyNotFound_sess (n : BitVec 9) (s : State) : (keyNotFound n s).sess = .failed := rfl
@[simp] theorem keyNotFound_err (n : BitVec 9) (s : State) : (keyNotFound n s).err = true := rfl
@[simp] theorem keyNotFound_errcode (n : BitVec 9) (s : State) : (keyNotFound n s).errcode = .keyNotFound := rfl
@[simp] theorem keyNotFound_key (n : BitVec 9) (s : State) : (keyNotFound n s).key = s.key := rfl
@[simp] theorem keyNotFound_pos (n : BitVec 9) (s : State) : (keyNotFound n s).pos = s.pos := rfl
@[simp] theorem keyNotFound_trials (n : BitVec 9) (s : State) : (keyNotFound n s).trials = n := rfl
@[simp] theorem keyNotFound_host (n : BitVec 9) (s : State) : (keyNotFound n s).host = s.host := rfl
@[simp] theorem keyNotFound_bus (n : BitVec 9) (s : State) : (keyNotFound n s).bus = s.bus := rfl

@[simp] theorem hardwareReset_din (s : State) : (hardwareReset s).din = 0 := rfl
@[simp] theorem hardwareReset_dout (s : State) : (hardwareReset s).dout = 0 := rfl
@[simp] theorem hardwareReset_sess (s : State) : (hardwareReset s).sess = .idle := rfl
@[simp] theorem hardwareReset_err (s : State) : (hardwareReset s).err = false := rfl
@[simp] theorem hardwareReset_errcode (s : State) : (hardwareReset s).errcode = .ok := rfl
@[simp] theorem hardwareReset_key (s : State) : (hardwareReset s).key = 0 := rfl
@[simp] theorem hardwareReset_pos (s : State) : (hardwareReset s).pos = 0 := rfl
@[simp] theorem hardwareReset_trials (s : State) : (hardwareReset s).trials = 0 := rfl
@[simp] theorem hardwareReset_host (s : State) : (hardwareReset s).host = s.host := rfl
@[simp] theorem hardwareReset_bus (s : State) : (hardwareReset s).bus = .quiet := rfl

/-- Two states that agree on every field are one state. -/
theorem State.ext_fields {s t : State} (hdin : s.din = t.din) (hdout : s.dout = t.dout) (hsess : s.sess = t.sess)
    (herr : s.err = t.err) (herrcode : s.errcode = t.errcode) (hkey : s.key = t.key) (hpos : s.pos = t.pos)
    (htrials : s.trials = t.trials) (hhost : s.host = t.host) (hbus : s.bus = t.bus) : s = t := by
  cases s; cases t; simp_all

/-- The host's list, put aside and put back. -/
@[simp] theorem State.setHost_setHost_host (s : State) (h : List HostEvent) : (s.setHost h).setHost s.host = s := rfl

end Sys2Proof.Machine
end

