-- ==== Sys2Proof/Laws/Exec.lean ====
section
/-! SUPPORT. What one command can do: the one inversion lemma of `exec` that whole-machine facts cite, and what the
operands and the LEN check are. -/

namespace Sys2Proof.Machine

@[simp] theorem lenIs_iff (required len : Len) : lenIs required len = true ↔ len = required := by
  simp [lenIs]

@[simp] theorem byteOperand_raiseErr (s : State) (c : ErrCode) : byteOperand (s.raiseErr c) = byteOperand s := rfl
@[simp] theorem byteOperand_setHost (s : State) (h : List HostEvent) : byteOperand (s.setHost h) = byteOperand s := rfl
@[simp] theorem byteOperand_setBus (s : State) (b : BusReply) : byteOperand (s.setBus b) = byteOperand s := rfl
@[simp] theorem byteOperand_setPos (s : State) (v : Word) : byteOperand (s.setPos v) = byteOperand s := rfl

/-- The codes that a command raises with no other effect (60_exceptions.md R231): all but OK and KEY_NOT_FOUND. -/
def ErrCode.isPlainError : ErrCode → Bool
  | .ok => false
  | .keyNotFound => false
  | .invalidLength => true
  | .noKey => true
  | .keyLocked => true
  | .sessionFailed => true
  | .illegalCmd => true

/-- Everything a command can do, one constructor per way it can end. -/
inductive Effect (i : Instr) (s : State) : State → Prop where
  | error (c : ErrCode) (hc : c.isPlainError = true) : Effect i s (s.raiseErr c)
  | srst (hi : i = .srst 0) : Effect i s ((((((s.setKey 0).setSess .idle).setPos 0).setTrials 0).clearErr).succeed)
  | begin (hi : i = .begin 0) : Effect i s (s.setPos 0).succeed
  | ldkey (hi : i = .ldkey 1) (hs : s.sess = .idle) : Effect i s ((s.setKey (byteOperand s)).setSess .keyed).succeed
  | found (len : Len) (c : Byte) (hi : i = .keyrec len) (hs : s.sess = .idle) (hl : len ≠ 0)
      (hc : searchKey (byteOperand s) = some c) : Effect i s (keyFound c s)
  | empty (hi : i = .keyrec 0) (hs : s.sess = .idle) : Effect i s (keyNotFound 0 s)
  | exhausted (len : Len) (hi : i = .keyrec len) (hs : s.sess = .idle) (hl : len ≠ 0)
      (hc : searchKey (byteOperand s) = none) : Effect i s (keyNotFound 256 s)
  | xform (hi : i = .xform 1) (hs : s.sess = .keyed) : Effect i s (xformEffect s)
  | encchr (hi : i = .encchr 1) : Effect i s (s.setDout (encodeChar (byteOperand s))).succeed
  | decchr (hi : i = .decchr 4) : Effect i s (s.setDout (zextByte (decodeChar (wireOperand s)))).succeed

/-- A command always ends in a next state, by one of the effects. -/
theorem exec_effect (i : Instr) (s : State) : ∃ t, exec i s = .next t ∧ Effect i s t := by
  cases i <;> refine ⟨_, rfl, ?_⟩
  case srst len =>
    split
    case isTrue h => cases (lenIs_iff _ _).1 h; exact .srst rfl
    case isFalse => exact .error .invalidLength rfl
  case begin len =>
    split
    case isTrue h => cases (lenIs_iff _ _).1 h; exact .begin rfl
    case isFalse => exact .error .invalidLength rfl
  case ldkey len =>
    split
    case isTrue h =>
      cases (lenIs_iff _ _).1 h
      split
      · exact .error .sessionFailed rfl
      · exact .error .keyLocked rfl
      · exact .ldkey rfl ‹_›
    case isFalse => exact .error .invalidLength rfl
  case keyrec len =>
    split
    · exact .error .sessionFailed rfl
    · exact .error .keyLocked rfl
    · split
      case isTrue h => cases h; exact .empty rfl ‹_›
      case isFalse h =>
        split
        · exact .found len _ rfl ‹_› h ‹_›
        · exact .exhausted len rfl ‹_› h ‹_›
  case xform len =>
    split
    case isTrue h =>
      cases (lenIs_iff _ _).1 h
      split
      · exact .error .sessionFailed rfl
      · exact .error .noKey rfl
      · exact .xform rfl ‹_›
    case isFalse => exact .error .invalidLength rfl
  case encchr len =>
    split
    case isTrue h => cases (lenIs_iff _ _).1 h; exact .encchr rfl
    case isFalse => exact .error .invalidLength rfl
  case decchr len =>
    split
    case isTrue h => cases (lenIs_iff _ _).1 h; exact .decchr rfl
    case isFalse => exact .error .invalidLength rfl

/-- The inversion of `exec`. -/
theorem effect_of_exec {i : Instr} {s t : State} (h : exec i s = .next t) : Effect i s t := by
  obtain ⟨u, hu, he⟩ := exec_effect i s
  cases hu.symm.trans h
  exact he

/-- A command leaves the operand register, the host's events and the bus alone. -/
theorem exec_frame {i : Instr} {s t : State} (h : exec i s = .next t) :
    t.din = s.din ∧ t.host = s.host ∧ t.bus = s.bus := by
  cases effect_of_exec h <;> exact ⟨rfl, rfl, rfl⟩

end Sys2Proof.Machine
end

