-- ==== Sys2Proof/Laws/PerInstr.lean ====
section
/-! SUPPORT. Facts about every command as syntax, one lemma per constructor. -/

namespace Sys2Proof.Laws.WordFields

/-- The fields of a command's word are the command's OP and LEN, and RSV is 0 (30_encoding.md R91, R92). -/
def Statement (i : Instr) : Prop :=
  opField (encode i) = i.opcode ∧ lenField (encode i) = i.len ∧ rsvField (encode i) = 0

theorem srst (len : Len) : Statement (.srst len) := by
  revert len; unfold Statement; decide

theorem begin (len : Len) : Statement (.begin len) := by
  revert len; unfold Statement; decide

theorem ldkey (len : Len) : Statement (.ldkey len) := by
  revert len; unfold Statement; decide

theorem keyrec (len : Len) : Statement (.keyrec len) := by
  revert len; unfold Statement; decide

theorem xform (len : Len) : Statement (.xform len) := by
  revert len; unfold Statement; decide

theorem encchr (len : Len) : Statement (.encchr len) := by
  revert len; unfold Statement; decide

theorem decchr (len : Len) : Statement (.decchr len) := by
  revert len; unfold Statement; decide

end Sys2Proof.Laws.WordFields
end

