-- ==== Sys2Proof/Laws/Port.lean ====
section
/-! SUPPORT. What the register port and one step can do. -/

namespace Sys2Proof.Machine

@[simp] theorem regAt_offset (r : Reg) : regAt r.offset = r := by
  cases r <;> decide

@[simp] theorem admitted_offset (r : Reg) : admitted 4 r.offset = true := by
  cases r <;> decide

/-- An offset that is a multiple of 4 is the offset of its register. -/
theorem offset_regAt {off : BitVec 5} (h : off.extractLsb' 0 2 = 0) : (regAt off).offset = off := by
  revert off; decide

theorem admitted_iff (bytes : Nat) (off : BitVec 5) : admitted bytes off = true ↔ bytes = 4 ∧ off.extractLsb' 0 2 = 0 := by
  simp [admitted]

/-- A CMD write ends in a next state: a command's effect, or ILLEGAL_CMD. -/
theorem commandWrite_next (w : Word) (s : State) :
    (∃ i t, decode w = .ok i ∧ exec i s = .next t ∧ commandWrite w s = .next t) ∨
    (∃ e, decode w = .error e ∧ commandWrite w s = .next (s.raiseErr .illegalCmd)) := by
  cases hd : decode w with
  | ok i =>
    obtain ⟨t, ht, -⟩ := exec_effect i s
    exact .inl ⟨i, t, rfl, ht, by simp [commandWrite, hd, ht]⟩
  | error e => exact .inr ⟨e, rfl, by simp [commandWrite, hd]⟩

/-- What a write to a register does. -/
theorem writeReg_next {r : Reg} {v : Word} {s t : State} (h : writeReg r v s = .next t) :
    (r = .cmd ∧ commandWrite v s = .next t) ∨ (r = .din ∧ t = s.setDin v) ∨ (r ≠ .cmd ∧ r ≠ .din ∧ t = s) := by
  cases r
  case cmd => exact .inl ⟨rfl, h⟩
  case din => exact .inr (.inl ⟨rfl, by simpa [writeReg] using h.symm⟩)
  all_goals exact .inr (.inr ⟨nofun, nofun, by simpa [writeReg] using h.symm⟩)

/-- Every write that is performed ends in a next state. -/
theorem writeReg_total (r : Reg) (v : Word) (s : State) : ∃ t, writeReg r v s = .next t := by
  cases r
  case cmd =>
    rcases commandWrite_next v s with ⟨_, t, _, _, h⟩ | ⟨_, _, h⟩
    · exact ⟨t, h⟩
    · exact ⟨_, h⟩
  all_goals exact ⟨_, rfl⟩

/-- Everything a step can do, one constructor per way it can end. -/
inductive Change (s : State) : State → Prop where
  | quiet (h : s.host = []) : Change s (s.setBus .quiet)
  | read (off : BitVec 5) (rest : List HostEvent) (h : s.host = .read 4 off :: rest) (ha : off.extractLsb' 0 2 = 0) :
      Change s ((s.setHost rest).setBus (.readData (readReg (regAt off) s)))
  | command (w : Word) (i : Instr) (rest : List HostEvent) (t : State) (h : s.host = .write 4 0 w :: rest)
      (hd : decode w = .ok i) (he : Effect i (s.setHost rest) t) : Change s (t.setBus .written)
  | illegal (w : Word) (e : DecodeError) (rest : List HostEvent) (h : s.host = .write 4 0 w :: rest)
      (hd : decode w = .error e) : Change s (((s.setHost rest).raiseErr .illegalCmd).setBus .written)
  | din (v : Word) (rest : List HostEvent) (h : s.host = .write 4 4 v :: rest) :
      Change s (((s.setHost rest).setDin v).setBus .written)
  | ignored (off : BitVec 5) (v : Word) (rest : List HostEvent) (h : s.host = .write 4 off v :: rest)
      (h0 : off ≠ 0) (h4 : off ≠ 4) (ha : off.extractLsb' 0 2 = 0) : Change s ((s.setHost rest).setBus .written)
  | reset (rest : List HostEvent) (h : s.host = .reset :: rest) : Change s (hardwareReset (s.setHost rest))
  | cut (w : Word) (fate : CutFate) (rest : List HostEvent) (h : s.host = .resetDuringCommand w fate :: rest) :
      Change s ((hardwareReset (s.setHost rest)).setBus fate.reply)

theorem acknowledge_next {o : Host.Outcome State Fault Refusal} {t : State} (h : acknowledge o = .next t) :
    ∃ u, o = .next u ∧ t = u.setBus .written := by
  cases o with
  | next u => exact ⟨u, rfl, by simpa [acknowledge] using h.symm⟩
  | fault r => cases h
  | refused r => cases h

theorem readReg_setHost (r : Reg) (s : State) (h : List HostEvent) : readReg r (s.setHost h) = readReg r s := by
  cases r <;> rfl

/-- The inversion of `step`. -/
theorem change_of_step {s t : State} (h : step s = .next t) : Change s t := by
  unfold step stepHost at h
  split at h
  · rename_i hh; cases h; exact .quiet hh
  rename_i ev rest hh
  cases ev with
  | read bytes off =>
    simp only [perform, hostRead] at h
    split at h
    · rename_i ha
      obtain ⟨rfl, hal⟩ := (admitted_iff _ _).1 ha
      cases h
      rw [readReg_setHost]
      exact .read off rest hh hal
    · cases h
  | write bytes off v =>
    simp only [perform, hostWrite] at h
    split at h
    · rename_i ha
      obtain ⟨rfl, hal⟩ := (admitted_iff _ _).1 ha
      obtain ⟨u, hu, rfl⟩ := acknowledge_next h
      have hoff := offset_regAt hal
      rcases writeReg_next hu with ⟨hr, hw⟩ | ⟨hr, rfl⟩ | ⟨h0, h4, rfl⟩
      · rw [hr] at hoff
        subst hoff
        rcases commandWrite_next v (s.setHost rest) with ⟨i, t', hd, he, hc⟩ | ⟨e, hd, hc⟩
        · cases hc.symm.trans hw
          exact .command v i rest u hh hd (effect_of_exec he)
        · cases hc.symm.trans hw
          exact .illegal v e rest hh hd
      · rw [hr] at hoff
        subst hoff
        exact .din v rest hh
      · exact .ignored off v rest hh (by rintro rfl; exact h0 rfl) (by rintro rfl; exact h4 rfl) hal
    · cases h
  | reset => cases h; exact .reset rest hh
  | resetDuringCommand w fate => cases h; exact .cut w fate rest hh

/-- An admitted read, or any write that is admitted, is performed. -/
theorem hostWrite_total {bytes : Nat} {off : BitVec 5} (h : admitted bytes off = true) (v : Word) (s : State) :
    ∃ t, hostWrite bytes off v s = .next t := by
  obtain ⟨t, ht⟩ := writeReg_total (regAt off) v s
  exact ⟨t.setBus .written, by simp [hostWrite, h, ht, acknowledge]⟩

end Sys2Proof.Machine
end

