-- ==== Sys2Proof/Laws/SessionKey.lean ====
section
/-! SUPPORT. The check map E, tabulated, and what `List.find?` over the candidates answers. -/

namespace Sys2Proof.Machine

/-- The table of E(c) for c = 0x00 to 0xFF, as 95_test_vectors.md V-K3 prints it, one row of 16 a line. -/
def checkMapTable : List Byte :=
    [0x14, 0xb9, 0x66, 0x2b, 0xfa, 0xb8, 0x6c, 0x14, 0xfb, 0xe7, 0xd3, 0xa0, 0x18, 0x6a, 0xd0, 0x2c]
    ++ [0xf4, 0x99, 0x46, 0xe0, 0xfe, 0xc2, 0xb8, 0x3d, 0xe9, 0x43, 0xbb, 0x55, 0xe6, 0x90, 0x4f, 0x5d]
    ++ [0xa4, 0x59, 0x6e, 0x86, 0xa0, 0x52, 0x99, 0x85, 0x0d, 0x4e, 0x77, 0x98, 0x5e, 0x4a, 0x62, 0x97]
    ++ [0xd4, 0xfe, 0x9e, 0x60, 0x50, 0xdb, 0x0f, 0x61, 0x2a, 0xd3, 0x13, 0x0e, 0x2b, 0xfb, 0x12, 0x07]
    ++ [0x0c, 0x5e, 0xae, 0x69, 0x08, 0x2d, 0x1b, 0xdf, 0x65, 0xa7, 0x14, 0x31, 0x6b, 0x50, 0xa5, 0x32]
    ++ [0xbc, 0xd2, 0x7e, 0xe2, 0x3d, 0xdd, 0xf8, 0xe8, 0x81, 0x38, 0xf9, 0x6d, 0x8e, 0x38, 0xe3, 0x60]
    ++ [0xb6, 0x87, 0x76, 0x4b, 0xed, 0x0d, 0x82, 0xb5, 0xe2, 0x3f, 0x81, 0xc6, 0xba, 0x3b, 0x74, 0xcc]
    ++ [0x92, 0x10, 0x53, 0x4b, 0x65, 0x16, 0x80, 0x56, 0x69, 0x04, 0x87, 0x5e, 0x13, 0x0e, 0xc8, 0x40]
    ++ [0x73, 0x6f, 0x5b, 0x28, 0x90, 0xe2, 0x58, 0xa4, 0x9c, 0x31, 0xee, 0xa3, 0x72, 0x30, 0xe4, 0x9c]
    ++ [0x61, 0xcb, 0x33, 0xdd, 0x6e, 0x18, 0xc7, 0xd5, 0x7c, 0x11, 0xce, 0x68, 0x76, 0x4a, 0x30, 0xb5]
    ++ [0x85, 0xc6, 0xff, 0x10, 0xd6, 0xc2, 0xea, 0x1f, 0x2c, 0xd1, 0xe6, 0x0e, 0x28, 0xda, 0x11, 0x0d]
    ++ [0xa2, 0x5b, 0x9b, 0x86, 0xa3, 0x73, 0x9a, 0x8f, 0x5c, 0x76, 0x16, 0xe8, 0xd8, 0x53, 0x87, 0xe9]
    ++ [0xed, 0x2f, 0x9c, 0xb9, 0xe3, 0xd8, 0x2d, 0xba, 0x84, 0xd6, 0x26, 0xe1, 0x80, 0xa5, 0x93, 0x57]
    ++ [0x09, 0xb0, 0x71, 0xe5, 0x06, 0xb0, 0x6b, 0xe8, 0x34, 0x5a, 0xf6, 0x6a, 0xb5, 0x55, 0x70, 0x60]
    ++ [0x6a, 0xb7, 0x09, 0x4e, 0x32, 0xb3, 0xfc, 0x44, 0x3e, 0x0f, 0xfe, 0xc3, 0x65, 0x85, 0x0a, 0x3d]
    ++ [0xe1, 0x8c, 0x0f, 0xd6, 0x9b, 0x86, 0x40, 0xc8, 0x1a, 0x98, 0xdb, 0xc3, 0xed, 0x9e, 0x08, 0xde]

/-- The model's E agrees with the printed table at every candidate (41_session_key.md R163). -/
theorem checkMap_table : candidates.map checkMap = checkMapTable := by decide +kernel

/-- Every byte is a candidate. -/
theorem mem_candidates (c : Byte) : c ∈ candidates := by
  simp only [candidates, List.mem_map, List.mem_range]
  exact ⟨c.toNat, c.isLt, by simp⟩

/-- Candidates are in ascending order, so a search answers the least that passes (41_session_key.md R162). -/
theorem candidates_pairwise : candidates.Pairwise (fun a b => a.toNat < b.toNat) := by
  rw [candidates, List.pairwise_map]
  refine List.pairwise_lt_range.imp_of_mem ?_
  intro a b ha hb hab
  have := List.mem_range.1 ha
  have := List.mem_range.1 hb
  simp only [BitVec.toNat_ofNat]
  omega

/-- The search over the candidates answers c exactly when c is the least byte that q holds of. -/
theorem find_candidates_some (q : Byte → Bool) (c : Byte) :
    candidates.find? q = some c ↔ q c = true ∧ ∀ d : Byte, d.toNat < c.toNat → q d = false := by
  rw [List.find?_eq_some_iff_append]
  constructor
  · rintro ⟨hq, l, r, hl, hn⟩
    refine ⟨hq, fun d hd => ?_⟩
    have hd' : d ∈ l ++ c :: r := hl ▸ mem_candidates d
    rcases List.mem_append.1 hd' with h | h
    · simpa using hn d h
    · exfalso
      have hp := candidates_pairwise
      rw [hl] at hp
      rcases List.mem_cons.1 h with rfl | h
      · omega
      · have := (List.pairwise_cons.1 (List.pairwise_append.1 hp).2.1).1 d h
        omega
  · rintro ⟨hq, hn⟩
    obtain ⟨l, r, hl⟩ := List.append_of_mem (mem_candidates c)
    refine ⟨hq, l, r, hl, fun d hd => ?_⟩
    have hp := candidates_pairwise
    rw [hl] at hp
    have := (List.pairwise_append.1 hp).2.2 d hd c List.mem_cons_self
    simp [hn d this]

/-- The search finds nothing exactly when q holds of no byte. -/
theorem find_candidates_none (q : Byte → Bool) : candidates.find? q = none ↔ ∀ c : Byte, q c = false := by
  rw [List.find?_eq_none]
  exact ⟨fun h c => by simpa using h c (mem_candidates c), fun h c _ => by simp [h c]⟩

end Sys2Proof.Machine
end

