-- ==== Sys2Proof/Tests/Slice0.lean ====
section
/-! SUPPORT. Tests of one step each, with results taken from the spec (its encodings, its examples and
95_test_vectors.md), and for every statement with hypotheses a concrete state that meets them (`test_meets_…`). -/

namespace Sys2Proof.Tests

open Sys2Proof.Machine Sys2Proof.Claims

/-! ### Helpers -/

/-- The outcome is the next state `t`. -/
def endsIn (o : Host.Outcome State Fault Refusal) (t : State) : Bool :=
  match o with
  | .next u    => decide (u = t)
  | .fault _   => false
  | .refused _ => false

theorem eq_next {o : Host.Outcome State Fault Refusal} {t : State} (h : endsIn o t = true) : o = .next t := by
  cases o with
  | next u => exact congrArg _ (of_decide_eq_true h)
  | fault r => cases h
  | refused r => cases h

/-- The state before a write of the command word `w`, and the one after it up to the registers `t` gives. -/
def before (s : State) (w : Word) : State := { s with host := [.write 4 0 w] }
def after (t : State) : State := { t with host := [], bus := .written }

/-- An idle, a keyed and a failed session, DOUT holding an earlier result. -/
def idle (din : Word) : State := { State.reset with din := din, dout := 0x5B5B5B5B }
def keyed (key : Byte) (pos din : Word) : State :=
  { State.reset with sess := .keyed, key := key, pos := pos, din := din, dout := 0x5B5B5B5B }
def failed : State :=
  { State.reset with sess := .failed, err := true, errcode := .keyNotFound, trials := 256, dout := 0x5B5B5B5B }

/-- A state in which every register differs from its reset value. -/
def full : State :=
  { din := 0xF9, dout := 0x5A, sess := .keyed, err := true, errcode := .keyLocked, key := 0x5A, pos := 2, trials := 0x5B,
    host := [], bus := .quiet }

/-! ### WellFormed: an ill-formed term for each check (30_encoding.md R92, R94) -/

theorem test_wellFormed_refuses :
    (Instr.srst 1).wellFormed = false ∧ (Instr.begin 7).wellFormed = false ∧ (Instr.ldkey 0).wellFormed = false ∧
    (Instr.xform 2).wellFormed = false ∧ (Instr.encchr 0).wellFormed = false ∧ (Instr.decchr 3).wellFormed = false := by
  decide

theorem test_wellFormed_admits :
    (Instr.srst 0).wellFormed = true ∧ (Instr.begin 0).wellFormed = true ∧ (Instr.ldkey 1).wellFormed = true ∧
    (∀ len, (Instr.keyrec len).wellFormed = true) ∧ (Instr.xform 1).wellFormed = true ∧
    (Instr.encchr 1).wellFormed = true ∧ (Instr.decchr 4).wellFormed = true := by
  decide

/-! ### Decoding: words written out from RSV (25 bits), LEN (3) and OP (4) (30_encoding.md R90 to R92) -/

theorem test_decode_words :
    (decode (0b0000000000000000000000000#25 ++ 0b000#3 ++ 0b0001#4)).toOption = some (.srst 0) ∧
    (decode (0b0000000000000000000000000#25 ++ 0b000#3 ++ 0b0010#4)).toOption = some (.begin 0) ∧
    (decode (0b0000000000000000000000000#25 ++ 0b001#3 ++ 0b0011#4)).toOption = some (.ldkey 1) ∧
    (decode (0b0000000000000000000000000#25 ++ 0b111#3 ++ 0b0100#4)).toOption = some (.keyrec 7) ∧
    (decode (0b0000000000000000000000000#25 ++ 0b001#3 ++ 0b0101#4)).toOption = some (.xform 1) ∧
    (decode (0b0000000000000000000000000#25 ++ 0b001#3 ++ 0b0110#4)).toOption = some (.encchr 1) ∧
    (decode (0b0000000000000000000000000#25 ++ 0b100#3 ++ 0b0111#4)).toOption = some (.decchr 4) := by
  decide

/-- The order of the checks: RSV before OP (60_exceptions.md R235). -/
theorem test_decode_refuses :
    (∀ e, decode 0x00000080 = .error e → e = .reservedBits) ∧ (decode 0x00000095).toOption = none ∧
    (decode 0x80000015).toOption = none ∧ (decode 0x00000000).toOption = none ∧ (decode 0x00000008).toOption = none ∧
    (decode 0x0000000F).toOption = none := by
  refine ⟨fun e h => ?_, ?_⟩
  · cases h; rfl
  · decide

theorem test_decodeTableWord :
    decodeTableWord 32 0x47 = some (.decchr 4) ∧ decodeTableWord 8 0x47 = some (.decchr 4) ∧
    decodeTableWord 32 0x48 = none := by
  decide

/-! ### One step per command -/

/-- V-C9, and 40_cipher.md R131. -/
theorem test_xform : step (before (keyed 0x5A 0 0xFFFFFF5A) 0x15) =
    .next (after { keyed 0x5A 2 0xFFFFFF5A with dout := 0xF9 }) := eq_next (by decide +kernel)

/-- V-C9: POS wraps. -/
theorem test_xform_wraps : step (before (keyed 0x3C 0xFFFFFFFE 0x41) 0x15) =
    .next (after { keyed 0x3C 0 0x41 with dout := 0x88 }) := eq_next (by decide +kernel)

/-- V-C9: NO_KEY, STATUS = 0x34. -/
theorem test_xform_noKey : step (before (idle 0x5A) 0x15) = .next (after (errored (idle 0x5A) .noKey)) ∧
    readReg .status (errored (idle 0x5A) .noKey) = 0x34 := ⟨eq_next (by decide), by decide⟩

/-- V-C9: BEGIN in a keyed session, and with LEN = 1. -/
theorem test_begin : step (before (keyed 0x5A 6 0) 0x02) = .next (after (keyed 0x5A 0 0)) := eq_next (by decide)
theorem test_begin_len1 : step (before (keyed 0x5A 6 0) 0x12) =
    .next (after (errored (keyed 0x5A 6 0) .invalidLength)) := eq_next (by decide)

/-- V-K1, and 41_session_key.md R165. -/
theorem test_keyrec : step (before (idle 0xF9) 0x14) =
    .next (after { idle 0xF9 with key := 0x5A, sess := .keyed, dout := 0x5A, trials := 0x5B }) :=
  eq_next (by decide +kernel)

/-- 41_session_key.md R165: b_0 = 0x00 exhausts the search. -/
theorem test_keyrec_exhausted : step (before (idle 0) 0x74) =
    .next (after { errored (idle 0) .keyNotFound with sess := .failed, trials := 256 }) := eq_next (by decide +kernel)

/-- 41_session_key.md R165: the empty first payload. -/
theorem test_keyrec_empty : step (before (idle 0xF9) 0x04) =
    .next (after { errored (idle 0xF9) .keyNotFound with sess := .failed, trials := 0 }) := eq_next (by decide +kernel)

/-- 41_session_key.md R170: the example, and in a keyed session. -/
theorem test_ldkey : step (before (idle 0x3C) 0x13) = .next (after { idle 0x3C with key := 0x3C, sess := .keyed }) :=
  eq_next (by decide)
theorem test_ldkey_locked : step (before (keyed 0x5A 2 0x3C) 0x13) =
    .next (after (errored (keyed 0x5A 2 0x3C) .keyLocked)) := eq_next (by decide)

/-- 41_session_key.md R175: the example, from STATUS = 0x56; DOUT stays. -/
theorem test_srst : readReg .status (errored failed .sessionFailed) = 0x56 ∧
    step (before (errored failed .sessionFailed) 0x01) = .next (after (idle 0)) := ⟨by decide, eq_next (by decide)⟩

/-- 42_char_codec.md R205 and R210: the examples, in a failed session. -/
theorem test_encchr : step (before { failed with din := 0x41 } 0x16) =
    .next (after { failed with din := 0x41, dout := 0x5F5B5B5F, errcode := .ok }) := eq_next (by decide +kernel)
theorem test_decchr : step (before { failed with din := 0x5F5B5B5F } 0x47) =
    .next (after { failed with din := 0x5F5B5B5F, dout := 0x41, errcode := .ok }) := eq_next (by decide +kernel)

/-- 42_char_codec.md R210: non-template bits are ignored. -/
theorem test_decchr_ignores : decodeChar 0x24242424 = 0xFF ∧ decodeChar 0xDBDBDBDB = 0x00 := by decide

/-- 30_encoding.md R100 and R235. -/
theorem test_illegal : step (before (idle 1) 0x95) = .next (after (errored (idle 1) .illegalCmd)) := eq_next (by decide)
theorem test_xform_len2 : step (before (idle 1) 0x25) = .next (after (errored (idle 1) .invalidLength)) :=
  eq_next (by decide)

/-! ### The port and reset -/

theorem test_write_din : step { full with host := [.write 4 4 7] } = .next { full with din := 7, bus := .written } :=
  eq_next (by decide)

/-- 10_state.md R37: STATUS of a keyed session with ERR and KEY_LOCKED. -/
theorem test_read_status : step { full with host := [.read 4 0x0C] } = .next { full with bus := .readData 0x45 } :=
  eq_next (by decide)

theorem test_reset : step { full with host := [.reset] } = .next State.reset := eq_next (by decide)

/-- 70_reset_and_hazards.md R272: a reset that meets KEYREC. -/
theorem test_reset_during_command : step { full with host := [.resetDuringCommand 0x14 .busError] } =
    .next { State.reset with bus := .busError } := eq_next (by decide)

theorem test_misaligned_refused : step { full with host := [.read 4 2] } = .refused .accessNotAdmitted := rfl
theorem test_narrow_refused : step { full with host := [.write 2 4 7] } = .refused .accessNotAdmitted := rfl

/-! ### The hypotheses of the statements are met -/

theorem test_meets_DecodeInvertsEncode :
    decode 0x00000074 = .ok (.keyrec 7) ∧ (0x00000074 : Word) = encode (.keyrec 7) := ⟨rfl, by decide⟩

theorem test_meets_OpcodeMapAndCanonicalWords :
    opOf (0x00000000 : Word) = 0 ∧ 8 ≤ opOf (0x00000008 : Word) ∧ 8 ≤ opOf (0x0000000F : Word) ∧
    (Instr.keyrec 7).wellFormed = true ∧ accepts (opOf (encode (.keyrec 7))) (lenOf (encode (.keyrec 7))) :=
  ⟨by decide, by decide, by decide, by decide, by unfold accepts; decide⟩

theorem test_meets_IllegalEncodingsHaveNoOtherEffect :
    rsvOf (0x00000095 : Word) ≠ 0 ∧ rsvOf (0x80000015 : Word) ≠ 0 ∧ opOf (0x00000000 : Word) = 0 ∧
    8 ≤ opOf (0x00000008 : Word) ∧ 8 ≤ opOf (0x0000000F : Word) := by decide

theorem test_meets_CommandWriteChecksInOrder :
    rsvOf (0x00000080 : Word) ≠ 0 ∧ (rsvOf (0x0000000F : Word) = 0 ∧ 8 ≤ opOf (0x0000000F : Word)) ∧
    (rsvOf (0x00000011 : Word) = 0 ∧ 1 ≤ opOf (0x00000011 : Word) ∧ opOf (0x00000011 : Word) ≤ 7 ∧
      ¬ accepts (opOf (0x00000011 : Word)) (lenOf (0x00000011 : Word))) ∧
    (rsvOf (0x00000037 : Word) = 0 ∧ opOf (0x00000037 : Word) = 7 ∧
      ¬ accepts (opOf (0x00000037 : Word)) (lenOf (0x00000037 : Word))) ∧
    (rsvOf (0x00000001 : Word) = 0 ∧ opOf (0x00000001 : Word) = 1 ∧
      accepts (opOf (0x00000001 : Word)) (lenOf (0x00000001 : Word))) ∧
    (rsvOf (0x00000047 : Word) = 0 ∧ opOf (0x00000047 : Word) = 7 ∧
      accepts (opOf (0x00000047 : Word)) (lenOf (0x00000047 : Word))) := by
  unfold accepts; decide

theorem test_meets_WrongLenHasNoOtherEffect :
    ((0 : Len) ≠ 1 ∧ (2 : Len) ≠ 1 ∧ (7 : Len) ≠ 1) ∧ ((3 : Len) ≠ 4 ∧ (5 : Len) ≠ 4) ∧
    (Instr.srst 7).wellFormed = false := by decide

theorem test_meets_StepRunsTheDecodedCommand :
    (before (idle 0xF9) 0x14).host = .write 4 0 0x14 :: [] ∧ decode 0x14 = .ok (.keyrec 1) ∧
    decodeTableWord 32 0x14 = some (.keyrec 1) := ⟨rfl, rfl, by decide⟩

/-- Each of the eight offsets, for a read and for a write, with all registers differing. -/
theorem test_meets_RegisterWindow :
    (∀ off ∈ [0x00, 0x04, 0x08, 0x0C, 0x10, 0x14, 0x18, 0x1C],
      { full with host := [.read 4 off] }.host = .read 4 off :: [] ∧
      { full with host := [.write 4 off 0x15] }.host = .write 4 off 0x15 :: []) ∧
    [Reg.cmd, .din, .dout, .status, .key, .pos, .trials, .reserved].map (readReg · full) =
      [0, 0xF9, 0x5A, 0x45, 0x5A, 2, 0x5B, 0] := ⟨fun _ _ => ⟨rfl, rfl⟩, by decide⟩

theorem test_meets_RepeatedReadsAgree :
    { full with host := [.read 4 0x14, .read 4 0x14, .reset] }.host =
      List.replicate 2 (HostEvent.read 4 (Reg.offset .pos)) ++ [HostEvent.reset] := rfl

theorem test_meets_OnlyAlignedWordAccessesAdmitted :
    (4 = 4 ∧ (0x1C : BitVec 5).toNat % 4 = 0) ∧ ¬ (4 = 4 ∧ (0x1F : BitVec 5).toNat % 4 = 0) ∧
    ¬ (4 = 4 ∧ (0x01 : BitVec 5).toNat % 4 = 0) ∧ ¬ (8 = 4 ∧ (0x00 : BitVec 5).toNat % 4 = 0) ∧
    { full with host := [.read 4 2] }.host = .read 4 2 :: [] ∧
    { full with host := [.write 2 4 7] }.host = .write 2 4 7 :: [] := by decide

theorem test_meets_AdmittedRunsNeverStop :
    Safety.hostAdmitted { full with host := [.write 4 4 7, .write 4 0 0x14, .read 4 8, .reset] } = true ∧
    Safety.hostAdmitted { full with host := [.read 4 2] } = false := by decide

theorem test_meets_QuietStepHoldsState : full.host = [] := rfl

theorem test_meets_ResetSetsEveryRegister :
    nextIsReset { full with host := [.reset] } ∧ nextIsReset { full with host := [.resetDuringCommand 0x14 .dropped] } :=
  ⟨⟨[], .inl rfl⟩, ⟨[], .inr ⟨0x14, .dropped, rfl⟩⟩⟩

theorem test_meets_ResetDuringCommandWins (fate : CutFate) :
    { full with host := [.resetDuringCommand 0x14 fate] }.host = .resetDuringCommand 0x14 fate :: [] := rfl

theorem test_meets_SrstStartsANewSession : (1 : Len) ≠ 0 ∧ (7 : Len) ≠ 0 := by decide

theorem test_meets_BeginZeroesPosition : (1 : Len) ≠ 0 ∧ (7 : Len) ≠ 0 := by decide

theorem test_meets_LdkeyLoadsTheKey :
    (idle 0x3C).sess = .idle ∧ failed.sess = .failed ∧ full.sess = .keyed ∧ (0 : Len) ≠ 1 ∧ (2 : Len) ≠ 1 := by decide

/-- The states and lengths of the clauses; the least passing candidate at both ends of the range: 0x00 for 0x14 and 0xFF
for 0xDE (V-K3); and no passing candidate for 0x00. -/
theorem test_meets_KeyrecRecoversTheLeastKey :
    (failed.sess = .failed ∧ full.sess = .keyed ∧ (idle 0).sess = .idle ∧ (1 : Len) ≠ 0 ∧ (7 : Len) ≠ 0) ∧
    (transformByte (lowByte (idle 0x14)) 0 0x00 = 0x00 ∧
      ∀ d : Byte, d.toNat < (0x00 : Byte).toNat → transformByte (lowByte (idle 0x14)) 0 d ≠ d) ∧
    (transformByte (lowByte (idle 0xDE)) 0 0xFF = 0xFF ∧
      ∀ d : Byte, d.toNat < (0xFF : Byte).toNat → transformByte (lowByte (idle 0xDE)) 0 d ≠ d) ∧
    (∀ c : Byte, transformByte (lowByte (idle 0)) 0 c ≠ c) ∧
    lowByte (idle 0xFFFFFF14) = 0x14 ∧ lowByte (idle 0x5A) = 0x5A ∧ lowByte (idle 0xF9) = 0xF9 ∧ lowByte (idle 0) = 0 := by
  refine ⟨by decide, ?_, ?_, ?_, by decide⟩ <;> decide +kernel

theorem test_meets_XformTransformsOneByte :
    (full.sess = .keyed ∧ failed.sess = .failed ∧ (idle 0).sess = .idle ∧ (0 : Len) ≠ 1 ∧ (2 : Len) ≠ 1) ∧
    (0xFFFFFFFE : Word).toNat % 256 = (keyed 0x5A 0xFE 0x5A).pos.toNat % 256 ∧
    ((keyed 0x5A 0 0x5A).sess = .keyed ∧ (keyed 0x5A 0 0x5A).key = 0x5A ∧ (keyed 0x5A 0 0x5A).pos = 0 ∧
      (keyed 0x5A 0 0x5A).din = 0x5A) := by decide

theorem test_meets_EncchrEncodesOneCharacter : (0 : Len) ≠ 1 ∧ (2 : Len) ≠ 1 := by decide

theorem test_meets_DecchrDecodesOneCharacter : (3 : Len) ≠ 4 ∧ (5 : Len) ≠ 4 := by decide

theorem test_meets_OnlyTheHostWritesDin :
    (step { full with host := [.reset] } = .next State.reset ∧ State.reset.din ≠ full.din) ∧
    (step { full with host := [.write 4 4 7] } = .next { full with din := 7, bus := .written } ∧ (7 : Word) ≠ full.din) :=
  ⟨⟨test_reset, by decide⟩, test_write_din, by decide⟩

/-- With the steps `test_xform`, `test_keyrec`, `test_encchr` and `test_decchr`. -/
theorem test_meets_OnlyFourCommandsWriteDout :
    nextIsCommand (before (keyed 0x5A 0 0xFFFFFF5A) 0x15) (.xform 1) ∧ nextIsCommand (before (idle 0xF9) 0x14) (.keyrec 1) ∧
    nextIsCommand (before { failed with din := 0x41 } 0x16) (.encchr 1) ∧
    nextIsCommand (before { failed with din := 0x5F5B5B5F } 0x47) (.decchr 4) ∧
    (step { full with host := [.reset] } = .next State.reset ∧ State.reset.dout ≠ full.dout) :=
  ⟨⟨[], rfl⟩, ⟨[], rfl⟩, ⟨[], rfl⟩, ⟨[], rfl⟩, test_reset, by decide⟩

/-- With the steps `test_reset`, `test_srst`, `test_begin`, `test_xform_wraps` and `test_write_din`. -/
theorem test_meets_OnlyResetSrstBeginXformWritePos :
    nextIsReset { full with host := [.reset] } ∧ nextIsCommand (before failed 0x01) (.srst 0) ∧
    nextIsCommand (before (keyed 0x5A 6 0) 0x02) (.begin 0) ∧
    (nextIsCommand (before (keyed 0x3C 0xFFFFFFFE 0x41) 0x15) (.xform 1) ∧
      (before (keyed 0x3C 0xFFFFFFFE 0x41) 0x15).sess = .keyed) ∧
    (¬ nextIsReset { full with host := [.write 4 4 7] } ∧ ∀ i, ¬ nextIsCommand { full with host := [.write 4 4 7] } i) := by
  refine ⟨⟨[], .inl rfl⟩, ⟨[], rfl⟩, ⟨[], rfl⟩, ⟨⟨[], rfl⟩, rfl⟩, ?_, ?_⟩
  · rintro ⟨rest, h | ⟨w, fate, h⟩⟩ <;> cases h
  · rintro i ⟨rest, h⟩
    exact absurd (congrArg (fun l => l.head?) h) (by simp)

/-- With the steps `test_ldkey`, `test_keyrec`, `test_srst` and `test_reset`. -/
theorem test_meets_KeyIsImmutableInASession :
    (nextIsCommand (before (idle 0x3C) 0x13) (.ldkey 1) ∧ (before (idle 0x3C) 0x13).sess = .idle) ∧
    nextIsCommand (before (idle 0xF9) 0x14) (.keyrec 1) ∧
    (step (before full 0x13) = .next (after full) ∧ full.sess = .keyed) ∧
    (step { full with host := [.reset] } = .next State.reset ∧ State.reset.key ≠ full.key) :=
  ⟨⟨⟨[], rfl⟩, rfl⟩, ⟨[], rfl⟩, ⟨eq_next (by decide), rfl⟩, test_reset, by decide⟩

/-- With the steps `test_ldkey`, `test_keyrec`, `test_keyrec_empty`, `test_srst` and `test_reset`. -/
theorem test_meets_SessionTransitions :
    (nextIsReset { full with host := [.reset] } ∧ full.sess ≠ State.reset.sess) ∧
    nextIsCommand (before failed 0x01) (.srst 0) ∧
    ((before (idle 0x3C) 0x13).sess = .idle ∧ nextIsCommand (before (idle 0x3C) 0x13) (.ldkey 1)) ∧
    ((before (idle 0xF9) 0x04).sess = .idle ∧ nextIsCommand (before (idle 0xF9) 0x04) (.keyrec 0)) ∧
    ((before (idle 0xF9) 0x14).sess = .idle ∧ nextIsCommand (before (idle 0xF9) 0x14) (.keyrec 1)) :=
  ⟨⟨⟨[], .inl rfl⟩, by decide⟩, ⟨[], rfl⟩, ⟨rfl, [], rfl⟩, ⟨rfl, [], rfl⟩, rfl, [], rfl⟩

theorem test_meets_EveryCommandWritesErrcode :
    (step { full with host := [.reset] } = .next State.reset ∧ State.reset.errcode ≠ full.errcode) ∧
    (step (before (idle 1) 0x95) = .next (after (errored (idle 1) .illegalCmd)) ∧
      (after (errored (idle 1) .illegalCmd)).errcode ≠ (before (idle 1) 0x95).errcode) :=
  ⟨⟨test_reset, by decide⟩, test_illegal, by decide⟩

/-- With the step `test_srst` for the second and fourth clauses. -/
theorem test_meets_ErrIsSticky :
    (step (before (idle 1) 0x95) = .next (after (errored (idle 1) .illegalCmd)) ∧ nextIsCmdWrite (before (idle 1) 0x95) 0x95 ∧
      (before (idle 1) 0x95).err = false ∧ (after (errored (idle 1) .illegalCmd)).err = true) ∧
    (step { full with host := [.reset] } = .next State.reset ∧ full.err = true ∧ State.reset.err = false) ∧
    nextIsCommand (before (errored failed .sessionFailed) 0x01) (.srst 0) :=
  ⟨⟨test_illegal, ⟨[], rfl⟩, rfl, rfl⟩, ⟨test_reset, rfl, rfl⟩, [], rfl⟩

/-- With the steps `test_keyrec` (TRIALS = key + 1), `test_keyrec_exhausted` (256), `test_keyrec_empty` (0), `test_srst`
and `test_reset`. -/
theorem test_meets_OnlyKeyrecSrstResetWriteTrials :
    (nextIsCommand (before (idle 0xF9) 0x14) (.keyrec 1) ∧ (before (idle 0xF9) 0x14).sess = .idle) ∧
    (nextIsCommand (before (idle 0) 0x74) (.keyrec 7) ∧ (before (idle 0) 0x74).sess = .idle) ∧
    (nextIsCommand (before (idle 0xF9) 0x04) (.keyrec 0) ∧ (before (idle 0xF9) 0x04).sess = .idle) ∧
    nextIsCommand (before (errored failed .sessionFailed) 0x01) (.srst 0) ∧ nextIsReset { full with host := [.reset] } :=
  ⟨⟨⟨[], rfl⟩, rfl⟩, ⟨⟨[], rfl⟩, rfl⟩, ⟨⟨[], rfl⟩, rfl⟩, ⟨[], rfl⟩, [], .inl rfl⟩

/-- An error of the first kind, and KEY_NOT_FOUND of an empty payload; `test_keyrec_exhausted` is that of the search. -/
theorem test_meets_ErrorsLeaveNoPartialResult :
    (commandWrite 0x13 full = .next (errored full .keyLocked) ∧ (errored full .keyLocked).errcode ≠ .ok) ∧
    commandWrite 0x04 (idle 1) = .next { errored (idle 1) .keyNotFound with sess := .failed, trials := 0 } :=
  ⟨⟨eq_next (by decide), by decide⟩, eq_next (by decide)⟩

theorem test_meets_OneOutcomeByPriority : (idle 1).sess = .idle := rfl

theorem test_meets_StepKeepsTheInvariants :
    Safety.Inv (before full 0x13) ∧ step (before full 0x13) = .next (after full) ∧ Safety.Inv failed ∧
    Safety.Inv (before (keyed 0x5A 0xFFFFFFFE 0x5A) 0x15) :=
  ⟨by decide, eq_next (by decide), by decide, by decide⟩

theorem test_meets_KeyedSessionIsLocked : full.sess = .keyed := rfl

/-- The second clause has `failed`; the third the step `test_srst`. -/
theorem test_meets_KeyNotFoundFailsTheSession :
    exec (.keyrec 0) (idle 1) = .next { errored (idle 1) .keyNotFound with sess := .failed, trials := 0 } ∧
    failed.sess = .failed ∧
    (step { failed with host := [.reset] } = .next State.reset ∧ State.reset.sess ≠ .failed) :=
  ⟨eq_next (by decide), rfl, eq_next (by decide), by decide⟩

theorem test_meets_UpperDinIsIgnored : (0xFFFFFFF9 : Word).toNat % 256 = full.din.toNat % 256 := by decide

theorem test_meets_KeyrecIgnoresPosition : exec (.keyrec 1) (idle 0xF9) =
    .next { idle 0xF9 with key := 0x5A, sess := .keyed, dout := 0x5A, trials := 0x5B } := eq_next (by decide +kernel)

theorem test_meets_CodecIsIndependentOfTheCipher :
    (Instr.encchr 1 = .encchr 1 ∨ Instr.encchr 1 = .decchr 1) ∧ (Instr.decchr 4 = .encchr 4 ∨ Instr.decchr 4 = .decchr 4) :=
  ⟨.inl rfl, .inr rfl⟩

theorem test_meets_TablesAreInvolutions : (0 : Nat) < 16 ∧ (15 : Nat) < 16 := by decide

/-- V-C2, row 7: negative sums. -/
theorem test_meets_ShuffleFormula :
    ∃ (aux : Int) (t1 t2 t3 : Nibble), aux = 15 ∧ t1 = 5 ∧ t2 = 11 ∧ t3 = 7 ∧
    aux = ((255 : Nat) / 16 : Int) % 256 ∧
    t1 = [14, 4, 3, 2, 1, 13, 8, 11, 6, 15, 12, 7, 10, 5, 0, 9].getD
      ((((15 : Nibble).toNat + (255 : Nat) + (15 : Nibble).toNat : Int) % 256) % 16).toNat 0 ∧
    t2 = [10, 6, 13, 12, 14, 11, 1, 9, 15, 7, 0, 5, 3, 2, 4, 8].getD
      (((t1.toNat + (15 : Nibble).toNat + aux - (255 : Nat) - (15 : Nibble).toNat : Int) % 256) % 16).toNat 0 ∧
    t3 = [14, 4, 3, 2, 1, 13, 8, 11, 6, 15, 12, 7, 10, 5, 0, 9].getD
      (((t2.toNat + (15 : Nibble).toNat + (255 : Nat) - (15 : Nibble).toNat - aux : Int) % 256) % 16).toNat 0 :=
  ⟨15, 5, 11, 7, by decide⟩

theorem test_meets_ShuffleUsesEightPositionBits : (0 : Nat) < 8 ∧ (7 : Nat) < 8 := by decide

theorem test_meets_TransformByteNibbles :
    (5 : Nibble).toNat = (0x5A : Byte).toNat / 16 ∧ (10 : Nibble).toNat = (0x5A : Byte).toNat % 16 := by decide

theorem test_meets_PayloadTransformByCommands :
    (keyed 0x3C 6 0).sess = .keyed ∧
    { keyed 0x3C 6 0 with host := events (.cmd .begin none :: [0x48, 0x69].flatMap xf) ++ [HostEvent.reset] }.host =
      events (.cmd .begin none :: [0x48, 0x69].flatMap xf) ++ [HostEvent.reset] ∧
    { keyed 0x3C 6 0 with host := [.write 4 0 2] }.host = events (.cmd .begin none :: [].flatMap xf) ++ [] :=
  ⟨rfl, rfl, by decide⟩

/-- 0xF9 is E(0x5A), and no candidate passes 0x00 (V-K3). -/
theorem test_meets_RecoveryDependsOnTheFirstByte :
    recoverKey [0xF9, 0x11] = some 0x5A ∧ recoverKey [0x00] = none := by decide +kernel

theorem test_meets_KeyrecRefinesRecoverKey :
    ((idle 0xF9).sess = .idle ∧ ((1 : Len) = 0 ↔ [(0xF9 : Byte), 0x11] = []) ∧
      (∀ b ∈ [(0xF9 : Byte), 0x11].head?, lowByte (idle 0xF9) = b) ∧ recoverKey [0xF9, 0x11] = some 0x5A) ∧
    (((0 : Len) = 0 ↔ ([] : List Byte) = []) ∧ (∀ b ∈ ([] : List Byte).head?, lowByte (idle 0xF9) = b) ∧
      recoverKey [] = none) := by
  decide +kernel

theorem test_meets_CheckMapIsNotOneToOne :
    (idle 0).sess = .idle ∧ (1 : Len) ≠ 0 ∧ passCount (lowByte (idle 0)) = 0 := by decide +kernel

theorem test_meets_CodecLaws :
    (0 : Nat) < 4 ∧ (3 : Nat) < 4 ∧ encodeChar (decodeChar 0x5F5B5B5F) = 0x5F5B5B5F ∧
    (∀ i : Nat, i < 4 → wireByte 0x5F5B5B5F i &&& ~~~0x24#8 = 0x5B#8) := by decide

theorem test_meets_TemplateBitsAreNotChecked :
    (0xFFFFFFFF : Word) &&& 0x24242424 = { full with din := 0x24242424 }.din &&& 0x24242424 := by decide

/-- Two blocks at addresses 32 and 64. -/
def twoBlocks : Platform := { blocks := [{ base := { index := 1 }, state := full }, { base := { index := 2 }, state := idle 0 }] }

/-- The window of the first block from both sides of both of its ends. -/
theorem test_meets_InstancesShareNothing :
    twoBlocks.wf = true ∧ twoBlocks.blocks[0]? = some { base := { index := 1 }, state := full } ∧
    twoBlocks.blocks[1]? = some { base := { index := 2 }, state := idle 0 } ∧ (1 : Nat) ≠ 0 ∧
    ¬ (32 * 1 ≤ (BusAccess.read 4 31).addr ∧ (BusAccess.read 4 31).addr ≤ 32 * 1 + 31) ∧
    ¬ (32 * 1 ≤ (BusAccess.read 4 64).addr ∧ (BusAccess.read 4 64).addr ≤ 32 * 1 + 31) ∧
    (BusAccess.read 4 32).addr = 32 * 1 + 0 ∧ (BusAccess.write 4 63 7).addr = 32 * 1 + 31 := by decide

end Sys2Proof.Tests
end

/-! ## Proofs: the command word and the decoder -/

namespace Sys2Proof.Proofs

open Sys2Proof.Machine Sys2Proof.Claims

/-- A command's word carries its OP and LEN, and RSV = 0 (30_encoding.md R90, R91). -/
theorem wordFields (i : Instr) : Laws.WordFields.Statement i := by
  cases i with
  | srst len => exact Laws.WordFields.srst len
  | begin len => exact Laws.WordFields.begin len
  | ldkey len => exact Laws.WordFields.ldkey len
  | keyrec len => exact Laws.WordFields.keyrec len
  | xform len => exact Laws.WordFields.xform len
  | encchr len => exact Laws.WordFields.encchr len
  | decchr len => exact Laws.WordFields.decchr len

theorem rsvField_toNat (w : Word) : (rsvField w).toNat = rsvOf w := by
  simp only [rsvField, rsvOf, BitVec.extractLsb'_toNat, Nat.shiftRight_eq_div_pow]
  omega

theorem lenField_toNat (w : Word) : (lenField w).toNat = lenOf w := by
  simp only [lenField, lenOf, BitVec.extractLsb'_toNat, Nat.shiftRight_eq_div_pow]

theorem opField_toNat (w : Word) : (opField w).toNat = opOf w := by
  simp [opField, opOf, BitVec.extractLsb'_toNat]

@[simp] theorem rsvOf_encode (i : Instr) : rsvOf (encode i) = 0 := by
  obtain ⟨-, -, hrsv⟩ := wordFields i
  rw [← rsvField_toNat, hrsv]
  rfl

@[simp] theorem lenOf_encode (i : Instr) : lenOf (encode i) = i.len.toNat := by
  obtain ⟨-, hlen, -⟩ := wordFields i
  rw [← lenField_toNat, hlen]

@[simp] theorem opOf_encode (i : Instr) : opOf (encode i) = i.opcode.toNat := by
  obtain ⟨hop, -, -⟩ := wordFields i
  rw [← opField_toNat, hop]

/-- A word is made of its three fields (30_encoding.md R91). -/
theorem word_eq_of_fields {v w : Word} (hrsv : rsvField v = rsvField w) (hlen : lenField v = lenField w)
    (hop : opField v = opField w) : v = w := by
  have h1 : rsvOf v = rsvOf w := by rw [← rsvField_toNat, hrsv, rsvField_toNat]
  have h2 : lenOf v = lenOf w := by rw [← lenField_toNat, hlen, lenField_toNat]
  have h3 : opOf v = opOf w := by rw [← opField_toNat, hop, opField_toNat]
  apply BitVec.eq_of_toNat_eq
  unfold rsvOf at h1
  unfold lenOf at h2
  unfold opOf at h3
  omega

@[simp] theorem selectOp_opcode (i : Instr) : selectOp i.opcode i.len = .ok i := by
  cases i <;> rfl

/-- OP and LEN of a selected operation are those it was selected by (30_encoding.md R92). -/
theorem fields_of_selectOp {op : BitVec 4} {len : Len} {i : Instr} (h : selectOp op len = .ok i) :
    op = i.opcode ∧ len = i.len := by
  unfold selectOp at h
  split at h <;> cases h <;> exact ⟨rfl, rfl⟩

/-- The operations that `selectOp` refuses are OP 0 and OP 8 to 15 (30_encoding.md R92). -/
theorem reserved_of_selectOp {op : BitVec 4} {len : Len} {e : DecodeError} (h : selectOp op len = .error e) :
    op.toNat = 0 ∨ 8 ≤ op.toNat := by
  by_contra hlegal
  have hop : op = 1 ∨ op = 2 ∨ op = 3 ∨ op = 4 ∨ op = 5 ∨ op = 6 ∨ op = 7 := by
    bv_omega
  rcases hop with rfl | rfl | rfl | rfl | rfl | rfl | rfl <;> cases h

@[simp] theorem decode_encode (i : Instr) : decode (encode i) = .ok i := by
  obtain ⟨hop, hlen, hrsv⟩ := wordFields i
  simp [decode, hop, hlen, hrsv]

/-- A decoded word is the word of its command (30_encoding.md R90). -/
theorem eq_encode_of_decode {w : Word} {i : Instr} (h : decode w = .ok i) : w = encode i := by
  unfold decode at h
  split at h
  · cases h
  next hrsv =>
    obtain ⟨hop, hlen⟩ := fields_of_selectOp h
    obtain ⟨hop', hlen', hrsv'⟩ := wordFields i
    exact word_eq_of_fields ((not_not.1 hrsv).trans hrsv'.symm) (hlen.trans hlen'.symm) (hop.trans hop'.symm)

/-- A word that is no command has RSV not 0 or a reserved OP (30_encoding.md R94, R95). -/
theorem malformed_of_decode {w : Word} {e : DecodeError} (h : decode w = .error e) :
    rsvOf w ≠ 0 ∨ opOf w = 0 ∨ 8 ≤ opOf w := by
  unfold decode at h
  split at h
  next hrsv =>
    exact .inl fun h0 => hrsv (BitVec.eq_of_toNat_eq ((rsvField_toNat w).trans h0))
  next =>
    rw [← opField_toNat]
    exact .inr (reserved_of_selectOp h)

@[simp] theorem commandWrite_encode (i : Instr) (s : State) : commandWrite (encode i) s = exec i s := by
  simp [commandWrite]

end Sys2Proof.Proofs

/-! ## Proofs: what one step does to the registers -/

namespace Sys2Proof.Proofs

open Sys2Proof.Machine Sys2Proof.Claims

/-- `Change` with the host's next event named as the statements name it: a reset, a command, a word that is no command,
or an access (or no event) that leaves every register but DIN alone. -/
inductive StepCase (s : State) : State → Prop where
  | reset (t : State) (hr : nextIsReset s) (ht : atReset t) : StepCase s t
  | command (i : Instr) (rest : List HostEvent) (u : State) (hi : nextIsCommand s i)
      (he : Effect i (s.setHost rest) u) : StepCase s (u.setBus .written)
  | illegal (w : Word) (rest : List HostEvent) (hw : nextIsCmdWrite s w) :
      StepCase s (((s.setHost rest).raiseErr .illegalCmd).setBus .written)
  | access (d : Word) (rest : List HostEvent) (b : BusReply)
      (hd : d = s.din ∨ s.host = .write 4 4 d :: rest) : StepCase s (((s.setDin d).setHost rest).setBus b)

theorem atReset_hardwareReset (s : State) : atReset (hardwareReset s) := by
  simp [atReset]

/-- The inversion of `step` that the register rules of 10_state.md are read from. -/
theorem stepCase_of_step {s t : State} (h : step s = .next t) : StepCase s t := by
  cases change_of_step h with
  | quiet _ => exact .access s.din s.host .quiet (.inl rfl)
  | read off rest _ _ => exact .access s.din rest _ (.inl rfl)
  | command w i rest u hh hd he =>
    exact .command i rest u ⟨rest, by rw [hh, eq_encode_of_decode hd]⟩ he
  | illegal w _ rest hh _ => exact .illegal w rest ⟨rest, hh⟩
  | din v rest hh => exact .access v rest .written (.inr hh)
  | ignored _ _ rest _ _ _ _ => exact .access s.din rest .written (.inl rfl)
  | reset rest hh => exact .reset _ ⟨rest, .inl hh⟩ (atReset_hardwareReset _)
  | cut w fate rest hh => exact .reset _ ⟨rest, .inr ⟨w, fate, hh⟩⟩ (atReset_hardwareReset (s.setHost rest))

/-- A reset step ends at the reset values (10_state.md R45). -/
theorem atReset_of_step {s t : State} (h : step s = .next t) (hr : nextIsReset s) : atReset t := by
  obtain ⟨rest, hh | ⟨w, fate, hh⟩⟩ := hr
  · simp only [step, stepHost, hh, perform] at h
    cases h
    exact atReset_hardwareReset _
  · simp only [step, stepHost, hh, perform] at h
    cases h
    exact atReset_hardwareReset (s.setHost rest)

/-- A CMD write's step runs `commandWrite`, and then acknowledges. -/
theorem commandWrite_of_step {s t : State} {w : Word} (h : step s = .next t) (hw : nextIsCmdWrite s w) :
    ∃ rest u, commandWrite w (s.setHost rest) = .next u ∧ t = u.setBus .written := by
  obtain ⟨rest, hh⟩ := hw
  have hstep : step s = acknowledge (commandWrite w (s.setHost rest)) := by
    simp only [step, stepHost, hh]
    rfl
  exact ⟨rest, acknowledge_next (hstep.symm.trans h)⟩

/-- A command's step runs `exec`, and then acknowledges. -/
theorem exec_of_step {s t : State} {i : Instr} (h : step s = .next t) (hi : nextIsCommand s i) :
    ∃ rest u, exec i (s.setHost rest) = .next u ∧ t = u.setBus .written := by
  obtain ⟨rest, u, hu, ht⟩ := commandWrite_of_step h hi
  exact ⟨rest, u, (commandWrite_encode i _).symm.trans hu, ht⟩

/-- Every CMD write ends in a next state: that of a command's effect, or ILLEGAL_CMD (30_encoding.md R94, R95). -/
theorem effect_of_commandWrite {w : Word} {s t : State} (h : commandWrite w s = .next t) :
    (∃ i, w = encode i ∧ Effect i s t) ∨ t = s.raiseErr .illegalCmd := by
  rcases commandWrite_next w s with ⟨i, u, hd, he, hc⟩ | ⟨-, -, hc⟩
  · cases hc.symm.trans h
    exact .inl ⟨i, eq_encode_of_decode hd, effect_of_exec he⟩
  · cases hc.symm.trans h
    exact .inr rfl

end Sys2Proof.Proofs

/-! ## Proofs: the commands, one lemma per success -/

namespace Sys2Proof.Proofs

open Sys2Proof.Machine Sys2Proof.Claims

theorem exec_srst_zero (s : State) :
    exec (.srst 0) s = .next (((((s.setKey 0).setSess .idle).setPos 0).setTrials 0).clearErr).succeed := rfl

theorem exec_begin_zero (s : State) : exec (.begin 0) s = .next (s.setPos 0).succeed := rfl

theorem exec_ldkey_idle {s : State} (hs : s.sess = .idle) :
    exec (.ldkey 1) s = .next ((s.setKey (byteOperand s)).setSess .keyed).succeed := by
  simp [exec, execLdkey, hs]

theorem exec_xform_keyed {s : State} (hs : s.sess = .keyed) : exec (.xform 1) s = .next (xformEffect s) := by
  simp [exec, execXform, hs]

theorem exec_encchr_one (s : State) :
    exec (.encchr 1) s = .next (s.setDout (encodeChar (byteOperand s))).succeed := rfl

theorem exec_decchr_four (s : State) :
    exec (.decchr 4) s = .next (s.setDout (zextByte (decodeChar (wireOperand s)))).succeed := rfl

/-- KEYREC in an idle session finds a key, or fails the session after 0 or 256 trials (41_session_key.md R165). -/
theorem exec_keyrec_idle {s : State} (len : Len) (hs : s.sess = .idle) :
    (∃ c, searchKey (byteOperand s) = some c ∧ exec (.keyrec len) s = .next (keyFound c s)) ∨
      exec (.keyrec len) s = .next (keyNotFound (if len = 0 then 0 else 256) s) := by
  by_cases hlen : len = 0
  · exact .inr (by simp only [exec, execKeyrec, hs, if_pos hlen])
  · cases hkey : searchKey (byteOperand s) with
    | some c => exact .inl ⟨c, rfl, by simp only [exec, execKeyrec, hs, if_neg hlen, hkey]⟩
    | none => exact .inr (by simp only [exec, execKeyrec, hs, if_neg hlen, hkey])

theorem ne_ok_of_isPlainError {c : ErrCode} (hc : c.isPlainError = true) : c ≠ .ok := by
  rintro rfl
  cases hc

/-- Only a found key ends a KEYREC in OK. -/
theorem keyFound_of_exec {s t : State} {len : Len} (h : exec (.keyrec len) s = .next t) (hok : t.errcode = .ok) :
    ∃ c, searchKey (byteOperand s) = some c ∧ t = keyFound c s := by
  cases effect_of_exec h with
  | error _ hc => exact absurd hok (ne_ok_of_isPlainError hc)
  | found _ c _ _ _ hkey => exact ⟨c, hkey, rfl⟩
  | empty => cases hok
  | exhausted => cases hok
  | _ => contradiction

/-- Only a keyed session ends an XFORM in OK. -/
theorem xformEffect_of_exec {s t : State} (h : exec (.xform 1) s = .next t) (hok : t.errcode = .ok) :
    t = xformEffect s := by
  cases effect_of_exec h with
  | error _ hc => exact absurd hok (ne_ok_of_isPlainError hc)
  | xform => rfl
  | _ => contradiction

/-- Reset and SRST end with no session, no error and no trials (10_state.md R34 to R40). -/
theorem cleared_of_step {s t : State} (h : step s = .next t) (hi : nextIsReset s ∨ nextIsCommand s (.srst 0)) :
    t.sess = .idle ∧ t.err = false ∧ t.key = 0 ∧ t.pos = 0 ∧ t.trials = 0 := by
  rcases hi with hr | hi
  · obtain ⟨-, -, hsess, herr, -, hkey, hpos, htrials⟩ := atReset_of_step h hr
    exact ⟨hsess, herr, hkey, hpos, htrials⟩
  · obtain ⟨rest, u, hu, rfl⟩ := exec_of_step h hi
    cases (exec_srst_zero _).symm.trans hu
    exact ⟨rfl, rfl, rfl, rfl, rfl⟩

end Sys2Proof.Proofs

/-! ## Proofs: STATUS (10_state.md R36 to R39) -/

namespace Sys2Proof.Proofs

open Sys2Proof.Machine Sys2Proof.Claims

theorem sess_code_le (x : Sess) : x.code.toNat ≤ 2 := by
  cases x <;> decide

theorem errCode_code_le (e : ErrCode) : e.code.toNat ≤ 6 := by
  cases e <;> decide

/-- STATUS by its fields: the appended fields of `statusWord` sit at bits 0, 2 and 4 (10_state.md R37). -/
theorem statusWord_toNat (s : State) :
    (statusWord s).toNat = s.sess.code.toNat + (if s.err then 4 else 0) + 16 * s.errcode.code.toNat := by
  have hfields : ∀ (e : BitVec 4) (b : Bool) (x : BitVec 2),
      ((0 : BitVec 24) ++ e ++ (0 : BitVec 1) ++ BitVec.ofBool b ++ x).toNat =
        x.toNat + (if b then 4 else 0) + 16 * e.toNat := by decide
  exact hfields _ _ _

/-- STATUS[1:0] is never 3 (10_state.md R36). -/
theorem status_mod_four_ne_three (s : State) : (readReg .status s).toNat % 4 ≠ 3 := by
  have hword : (readReg .status s).toNat = _ := statusWord_toNat s
  have hsess := sess_code_le s.sess
  rw [hword]
  split <;> omega

/-- ERRCODE never reads above 6 (10_state.md R38). -/
theorem status_errcode_le_six (s : State) : (readReg .status s).toNat / 16 % 16 ≤ 6 := by
  have hword : (readReg .status s).toNat = _ := statusWord_toNat s
  have hsess := sess_code_le s.sess
  have herrcode := errCode_code_le s.errcode
  rw [hword]
  split <;> omega

/-- STATUS fits in its low byte, and bit 3 is 0 (10_state.md R37). -/
theorem status_reserved_bits (s : State) :
    bit (readReg .status s) 3 = 0 ∧ (readReg .status s).toNat / 256 = 0 := by
  have hword : (readReg .status s).toNat = _ := statusWord_toNat s
  have hsess := sess_code_le s.sess
  have herrcode := errCode_code_le s.errcode
  unfold bit
  rw [hword]
  split <;> omega

/-- Settles O13: STATUS is the sum of its fields, each at its own bits. -/
theorem statusLayout : Obligations.StatusLayout := by
  refine ⟨fun s => ?_, status_reserved_bits, by decide, fun _ _ => rfl⟩
  have hword : (readReg .status s).toNat = _ := statusWord_toNat s
  rw [hword]
  congr 2
  · cases s.sess <;> rfl
  · cases s.errcode <;> rfl

end Sys2Proof.Proofs

/-! ## Proofs: the invariants of 10_state.md R44 -/

namespace Sys2Proof.Proofs

open Sys2Proof.Machine Sys2Proof.Claims

/-- The reset values meet the invariants. -/
theorem inv_of_atReset {t : State} (h : atReset t) : Safety.Inv t := by
  obtain ⟨-, -, hsess, -, herrcode, hkey, hpos, htrials⟩ := h
  simp [Safety.Inv, hsess, herrcode, hkey, hpos, htrials]

/-- TRIALS after a found key: `key + 1` does not wrap in 9 bits (10_state.md R40). -/
theorem keyFound_trials_toNat (c : Byte) (s : State) : (keyFound c s).trials.toNat = c.toNat + 1 := by
  simp only [keyFound_trials]
  bv_omega

/-- An error keeps the invariants: it sets ERR and leaves the rest (60_exceptions.md R231). -/
theorem inv_raiseErr {s : State} (hinv : Safety.Inv s) (c : ErrCode) : Safety.Inv (s.raiseErr c) := by
  obtain ⟨hkey, hpos, htrials, -, -, hidle⟩ := hinv
  exact ⟨hkey, hpos, htrials, fun _ => rfl, fun _ => rfl, hidle⟩

/-- KEY_NOT_FOUND keeps the invariants: the idle session it fails had KEY = 0 (41_session_key.md R165). -/
theorem inv_keyNotFound {s : State} (hinv : Safety.Inv s) (hs : s.sess = .idle) {n : BitVec 9} (hn : n.toNat ≤ 256) :
    Safety.Inv (keyNotFound n s) := by
  obtain ⟨hkey, hpos, -, -, -, -⟩ := hinv
  exact ⟨fun _ => hkey (by simp [hs]), hpos, hn, fun _ => rfl, fun _ => rfl, nofun⟩

/-- Every way a command can end keeps the invariants. -/
theorem effect_keeps_inv {i : Instr} {s t : State} (hinv : Safety.Inv s) (he : Effect i s t) : Safety.Inv t := by
  have ⟨hkey, hpos, htrials, _, hfailed, hidle⟩ := hinv
  cases he with
  | error c _ => exact inv_raiseErr hinv c
  | srst => exact ⟨fun _ => rfl, rfl, Nat.zero_le _, nofun, nofun, fun _ => rfl⟩
  | begin => exact ⟨hkey, rfl, htrials, nofun, hfailed, hidle⟩
  | ldkey => exact ⟨nofun, hpos, htrials, nofun, nofun, nofun⟩
  | found _ c =>
    have hle : (keyFound c s).trials.toNat ≤ 256 := by
      rw [keyFound_trials_toNat]
      omega
    exact ⟨nofun, hpos, hle, nofun, nofun, nofun⟩
  | empty _ hs => exact inv_keyNotFound hinv hs (Nat.zero_le _)
  | exhausted _ _ hs => exact inv_keyNotFound hinv hs le_rfl
  | xform =>
    have heven : (s.pos + 2).toNat % 2 = 0 := by bv_omega
    exact ⟨hkey, heven, htrials, nofun, hfailed, hidle⟩
  | encchr => exact ⟨hkey, hpos, htrials, nofun, hfailed, hidle⟩
  | decchr => exact ⟨hkey, hpos, htrials, nofun, hfailed, hidle⟩

/-- Every step keeps the invariants: they do not read DIN, the host's events or the bus. -/
theorem step_keeps_inv {s t : State} (hinv : Safety.Inv s) (h : step s = .next t) : Safety.Inv t := by
  cases stepCase_of_step h with
  | reset _ _ ht => exact inv_of_atReset ht
  | command i rest u _ he =>
    have hu : Safety.Inv u := effect_keeps_inv (s := s.setHost rest) hinv he
    exact hu
  | illegal _ rest _ =>
    have hu : Safety.Inv ((s.setHost rest).raiseErr .illegalCmd) := inv_raiseErr (s := s.setHost rest) hinv _
    exact hu
  | access => exact hinv

/-- Settles O34, by the ways a step can end. -/
theorem stepKeepsTheInvariants : Obligations.StepKeepsTheInvariants :=
  fun _ t hinv h => ⟨step_keeps_inv hinv h, status_mod_four_ne_three t⟩

/-- Settles O35: the host's events are in no invariant. -/
theorem resetMeetsTheInvariants : Obligations.ResetMeetsTheInvariants :=
  fun h => inv_of_atReset (atReset_hardwareReset { State.reset with host := h })

/-- Settles O14: each reset value and both tables are closed terms, which evaluate. -/
theorem resetValues : Obligations.ResetValues := by
  unfold Obligations.ResetValues
  decide

end Sys2Proof.Proofs

/-! ## Proofs: operands, results and searches in the statements' own arithmetic -/

namespace Sys2Proof.Proofs

open Sys2Proof.Machine Sys2Proof.Claims

theorem byteOperand_eq_lowByte (s : State) : byteOperand s = lowByte s := by
  apply BitVec.eq_of_toNat_eq
  simp [byteOperand, lowByte, BitVec.extractLsb'_toNat]

theorem zextByte_eq_zext (b : Byte) : zextByte b = zext b := by
  apply BitVec.eq_of_toNat_eq
  simp [zextByte, zext]

/-- A bit as a number is the bit the word library reads. -/
theorem bit_eq_getLsbD {n : Nat} (v : BitVec n) (k : Nat) : bit v k = (v.getLsbD k).toNat := by
  rw [BitVec.getLsbD, Nat.toNat_testBit, bit]

/-- A wire byte is the template with two bits of the character put in (42_char_codec.md R202). -/
theorem encodeWireByte_eq_wireAt (c : Byte) (i : Nat) : encodeWireByte c i = wireAt c i := by
  have hbits : ∀ hi lo : Bool,
      templateByte ||| ((BitVec.ofBool hi).setWidth 8 <<< 5) ||| ((BitVec.ofBool lo).setWidth 8 <<< 2) =
        BitVec.ofNat 8 (0x5B ||| (hi.toNat <<< 5) ||| (lo.toNat <<< 2)) := by decide
  rw [wireAt, bit_eq_getLsbD, bit_eq_getLsbD]
  exact hbits _ _

theorem encodeChar_eq_wireWord (c : Byte) : encodeChar c = wireWord c := by
  simp only [encodeChar, wireWord, encodeWireByte_eq_wireAt]

/-- The payload bits of wire byte i are bits 29 - 8i and 26 - 8i of the word (42_char_codec.md R203). -/
theorem payloadBits_wireByte (w : Word) (i : Nat) :
    payloadBits (wireByte w i) =
      BitVec.ofBool (w.getLsbD (24 - 8 * i + 5)) ++ BitVec.ofBool (w.getLsbD (24 - 8 * i + 2)) := by
  simp [payloadBits, wireByte]

theorem zextByte_decodeChar (w : Word) : zextByte (decodeChar w) = BitVec.ofNat 32 (charNat w) := by
  have hbits : ∀ b5 b2 b13 b10 b21 b18 b29 b26 : Bool,
      zextByte ((BitVec.ofBool b5 ++ BitVec.ofBool b2) ++ (BitVec.ofBool b13 ++ BitVec.ofBool b10) ++
          (BitVec.ofBool b21 ++ BitVec.ofBool b18) ++ (BitVec.ofBool b29 ++ BitVec.ofBool b26)) =
        BitVec.ofNat 32 (b5.toNat * 128 + b2.toNat * 64 + b13.toNat * 32 + b10.toNat * 16 + b21.toNat * 8 +
          b18.toNat * 4 + b29.toNat * 2 + b26.toNat) := by decide
  simp only [decodeChar, payloadBits_wireByte, charNat, bit_eq_getLsbD]
  exact hbits _ _ _ _ _ _ _ _

/-- A key that the search answers maps the first payload byte to itself (41_session_key.md R165). -/
theorem transformByte_of_searchKey {b c : Byte} (h : searchKey b = some c) : transformByte b 0 c = c := by
  have hpass : passes b c = true := List.find?_some h
  simpa [passes] using hpass

/-- The search answers a key exactly when some candidate passes (41_session_key.md R162). -/
theorem searchKey_isSome (b : Byte) : (searchKey b).isSome = someKeyPasses b := by
  rw [Bool.eq_iff_iff, searchKey, List.find?_isSome, someKeyPasses, List.any_eq_true]
  rfl

end Sys2Proof.Proofs

/-! ## Proofs: the one writer of DIN, and the writers of DOUT and POS (10_state.md R31 to R34) -/

namespace Sys2Proof.Proofs

open Sys2Proof.Machine Sys2Proof.Claims

/-- No command writes DIN (10_state.md R31). -/
theorem effect_din {i : Instr} {s t : State} (he : Effect i s t) : t.din = s.din := by
  cases he <;> rfl

/-- Settles O24, by the ways a step can end. -/
theorem onlyTheHostWritesDin : Obligations.OnlyTheHostWritesDin := by
  intro s t h hne
  cases stepCase_of_step h with
  | reset _ hr ht =>
    obtain ⟨hdin, -⟩ := ht
    exact .inl ⟨hr, hdin⟩
  | command i rest u _ he => exact absurd (effect_din he) hne
  | illegal => exact absurd rfl hne
  | access d rest b hd =>
    rcases hd with rfl | hd
    · exact absurd rfl hne
    · exact .inr ⟨rest, hd⟩

/-- A command changes DOUT only if it is one of the four and succeeds (10_state.md R33). -/
theorem effect_dout {i : Instr} {s t : State} (he : Effect i s t) :
    t.dout = s.dout ∨ t.errcode = .ok ∧
      (i = .xform 1 ∨ (∃ len, i = .keyrec len) ∨ i = .encchr 1 ∨ i = .decchr 4) := by
  cases he with
  | xform hi => exact .inr ⟨rfl, .inl hi⟩
  | found len _ hi => exact .inr ⟨rfl, .inr (.inl ⟨len, hi⟩)⟩
  | encchr hi => exact .inr ⟨rfl, .inr (.inr (.inl hi))⟩
  | decchr hi => exact .inr ⟨rfl, .inr (.inr (.inr hi))⟩
  | _ => exact .inl rfl

/-- `effect_dout` for a whole step. -/
theorem dout_writers {s t : State} (h : step s = .next t) (hne : t.dout ≠ s.dout) :
    (nextIsReset s ∧ t.dout = 0) ∨
      (t.errcode = .ok ∧
        (nextIsCommand s (.xform 1) ∨ (∃ len, nextIsCommand s (.keyrec len)) ∨ nextIsCommand s (.encchr 1) ∨
          nextIsCommand s (.decchr 4))) := by
  cases stepCase_of_step h with
  | reset _ hr ht =>
    obtain ⟨-, hdout, -⟩ := ht
    exact .inl ⟨hr, hdout⟩
  | command i rest u hi he =>
    rcases effect_dout he with heq | ⟨hok, rfl | ⟨len, rfl⟩ | rfl | rfl⟩
    · exact absurd heq hne
    · exact .inr ⟨hok, .inl hi⟩
    · exact .inr ⟨hok, .inr (.inl ⟨len, hi⟩)⟩
    · exact .inr ⟨hok, .inr (.inr (.inl hi))⟩
    · exact .inr ⟨hok, .inr (.inr (.inr hi))⟩
  | illegal => exact absurd rfl hne
  | access => exact absurd rfl hne

/-- Settles O25: each success by its command's own equation, the rest by the ways a step can end. -/
theorem onlyFourCommandsWriteDout : Obligations.OnlyFourCommandsWriteDout := by
  refine fun s t h => ⟨fun hi hok => ?xform, fun len hi hok => ?keyrec, fun hi => ?encchr, fun hi => ?decchr,
    dout_writers h⟩
  case xform =>
    obtain ⟨rest, u, hu, rfl⟩ := exec_of_step h hi
    obtain rfl := xformEffect_of_exec hu hok
    rw [← zextByte_eq_zext, ← byteOperand_eq_lowByte]
    rfl
  case keyrec =>
    obtain ⟨rest, u, hu, rfl⟩ := exec_of_step h hi
    obtain ⟨c, -, rfl⟩ := keyFound_of_exec hu hok
    exact zextByte_eq_zext c
  case encchr =>
    obtain ⟨rest, u, hu, rfl⟩ := exec_of_step h hi
    cases (exec_encchr_one _).symm.trans hu
    rw [← encodeChar_eq_wireWord, ← byteOperand_eq_lowByte]
    exact ⟨rfl, rfl⟩
  case decchr =>
    obtain ⟨rest, u, hu, rfl⟩ := exec_of_step h hi
    cases (exec_decchr_four _).symm.trans hu
    exact ⟨rfl, zextByte_decodeChar s.din⟩

/-- Of the commands, SRST, BEGIN and XFORM in a keyed session change POS (10_state.md R34). -/
theorem effect_pos {i : Instr} {s t : State} (he : Effect i s t) :
    t.pos = s.pos ∨ i = .srst 0 ∨ i = .begin 0 ∨ i = .xform 1 ∧ s.sess = .keyed := by
  cases he with
  | srst hi => exact .inr (.inl hi)
  | begin hi => exact .inr (.inr (.inl hi))
  | xform hi hs => exact .inr (.inr (.inr ⟨hi, hs⟩))
  | _ => exact .inl rfl

/-- `effect_pos` for a whole step. -/
theorem pos_writers {s t : State} (h : step s = .next t) :
    t.pos = s.pos ∨ nextIsReset s ∨ nextIsCommand s (.srst 0) ∨ nextIsCommand s (.begin 0) ∨
      nextIsCommand s (.xform 1) ∧ s.sess = .keyed := by
  cases stepCase_of_step h with
  | reset _ hr => exact .inr (.inl hr)
  | command i rest u hi he =>
    rcases effect_pos he with heq | rfl | rfl | ⟨rfl, hs⟩
    · exact .inl heq
    · exact .inr (.inr (.inl hi))
    · exact .inr (.inr (.inr (.inl hi)))
    · exact .inr (.inr (.inr (.inr ⟨hi, hs⟩)))
  | illegal => exact .inl rfl
  | access => exact .inl rfl

theorem pos_of_begin {s t : State} (h : step s = .next t) (hi : nextIsCommand s (.begin 0)) : t.pos = 0 := by
  obtain ⟨rest, u, hu, rfl⟩ := exec_of_step h hi
  cases (exec_begin_zero _).symm.trans hu
  rfl

/-- XFORM adds 2 to POS, modulo 2^32 (10_state.md R34). -/
theorem pos_of_xform {s t : State} (h : step s = .next t) (hi : nextIsCommand s (.xform 1)) (hs : s.sess = .keyed) :
    t.pos.toNat = (s.pos.toNat + 2) % 2 ^ 32 := by
  obtain ⟨rest, u, hu, rfl⟩ := exec_of_step h hi
  cases (exec_xform_keyed (s := s.setHost rest) hs).symm.trans hu
  exact BitVec.toNat_add s.pos 2

/-- Settles O26: each writer by its command's own equation, the rest by the ways a step can end. -/
theorem onlyResetSrstBeginXformWritePos : Obligations.OnlyResetSrstBeginXformWritePos := by
  refine ⟨fun s t h => ⟨fun hzero => ?zeroed, pos_of_xform h, fun hzero hxform => ?kept⟩, fun _ => rfl⟩
  case zeroed =>
    rcases or_assoc.2 hzero with hcleared | hi
    · obtain ⟨-, -, -, hpos, -⟩ := cleared_of_step h hcleared
      exact hpos
    · exact pos_of_begin h hi
  case kept =>
    rcases pos_writers h with heq | hr | hi | hi | hx
    · exact heq
    · exact absurd (.inl hr) hzero
    · exact absurd (.inr (.inl hi)) hzero
    · exact absurd (.inr (.inr hi)) hzero
    · exact absurd hx hxform

end Sys2Proof.Proofs

/-! ## Proofs: the writers of KEY, SESS and TRIALS (10_state.md R35, R36, R40) -/

namespace Sys2Proof.Proofs

open Sys2Proof.Machine Sys2Proof.Claims

/-- KEY, SESS and TRIALS change together: by SRST, or by LDKEY or KEYREC in an idle session. Of these KEYREC alone can
end in an error, and LDKEY alone leaves TRIALS. -/
theorem effect_session {i : Instr} {s t : State} (he : Effect i s t) :
    (t.key = s.key ∧ t.sess = s.sess ∧ t.trials = s.trials) ∨ i = .srst 0 ∨
      (s.sess = .idle ∧
        ((i = .ldkey 1 ∧ t.errcode = .ok ∧ t.trials = s.trials) ∨
          ((∃ len, i = .keyrec len) ∧ (t.errcode = .ok ∨ t.key = s.key)))) := by
  cases he with
  | srst hi => exact .inr (.inl hi)
  | ldkey hi hs => exact .inr (.inr ⟨hs, .inl ⟨hi, rfl, rfl⟩⟩)
  | found len _ hi hs => exact .inr (.inr ⟨hs, .inr ⟨⟨len, hi⟩, .inl rfl⟩⟩)
  | empty hi hs => exact .inr (.inr ⟨hs, .inr ⟨⟨0, hi⟩, .inr rfl⟩⟩)
  | exhausted len hi hs => exact .inr (.inr ⟨hs, .inr ⟨⟨len, hi⟩, .inr rfl⟩⟩)
  | _ => exact .inl ⟨rfl, rfl, rfl⟩

/-- `effect_session` for a whole step. -/
theorem session_writers {s t : State} (h : step s = .next t) :
    (t.key = s.key ∧ t.sess = s.sess ∧ t.trials = s.trials) ∨ (nextIsReset s ∨ nextIsCommand s (.srst 0)) ∨
      (s.sess = .idle ∧
        ((nextIsCommand s (.ldkey 1) ∧ t.errcode = .ok ∧ t.trials = s.trials) ∨
          ((∃ len, nextIsCommand s (.keyrec len)) ∧ (t.errcode = .ok ∨ t.key = s.key)))) := by
  cases stepCase_of_step h with
  | reset _ hr => exact .inr (.inl (.inl hr))
  | command i rest u hi he =>
    rcases effect_session he with heq | rfl | ⟨hs, ⟨rfl, hld⟩ | ⟨⟨len, rfl⟩, hrec⟩⟩
    · exact .inl heq
    · exact .inr (.inl (.inr hi))
    · exact .inr (.inr ⟨hs, .inl ⟨hi, hld⟩⟩)
    · exact .inr (.inr ⟨hs, .inr ⟨⟨len, hi⟩, hrec⟩⟩)
  | illegal => exact .inl ⟨rfl, rfl, rfl⟩
  | access => exact .inl ⟨rfl, rfl, rfl⟩

/-- LDKEY opens an idle session with DIN[7:0] as its key (41_session_key.md R170). -/
theorem keyed_of_ldkey {s t : State} (h : step s = .next t) (hi : nextIsCommand s (.ldkey 1)) (hs : s.sess = .idle) :
    t.key = lowByte s ∧ t.sess = .keyed ∧ t.errcode = .ok := by
  obtain ⟨rest, u, hu, rfl⟩ := exec_of_step h hi
  cases (exec_ldkey_idle (s := s.setHost rest) hs).symm.trans hu
  exact ⟨byteOperand_eq_lowByte s, rfl, rfl⟩

/-- A KEYREC that ends in OK opens the session with a key that passes (41_session_key.md R165). -/
theorem keyed_of_keyrec_ok {s t : State} {len : Len} (h : step s = .next t) (hi : nextIsCommand s (.keyrec len))
    (hok : t.errcode = .ok) : transformByte (lowByte s) 0 t.key = t.key ∧ t.sess = .keyed := by
  obtain ⟨rest, u, hu, rfl⟩ := exec_of_step h hi
  obtain ⟨c, hkey, rfl⟩ := keyFound_of_exec hu hok
  rw [← byteOperand_eq_lowByte]
  exact ⟨transformByte_of_searchKey hkey, rfl⟩

/-- KEYREC in an idle session: success with TRIALS = key + 1, or a failed session with TRIALS 0 or 256
(41_session_key.md R165, R167). -/
theorem keyrec_from_idle {s t : State} {len : Len} (h : step s = .next t) (hi : nextIsCommand s (.keyrec len))
    (hs : s.sess = .idle) :
    (t.errcode = .ok ∧ t.sess = .keyed ∧ t.trials.toNat = t.key.toNat + 1) ∨
      (t.errcode = .keyNotFound ∧ t.sess = .failed ∧ t.trials.toNat = if len = 0 then 0 else 256) := by
  obtain ⟨rest, u, hu, rfl⟩ := exec_of_step h hi
  rcases exec_keyrec_idle (s := s.setHost rest) len hs with ⟨c, -, he⟩ | he
  · cases he.symm.trans hu
    exact .inl ⟨rfl, rfl, keyFound_trials_toNat c s⟩
  · cases he.symm.trans hu
    refine .inr ⟨rfl, rfl, ?_⟩
    rw [State.setBus_trials, keyNotFound_trials]
    split <;> rfl

/-- A change of KEY is an end of the session, or its start (10_state.md R35). -/
theorem key_writers {s t : State} (h : step s = .next t) (hne : t.key ≠ s.key) :
    nextIsReset s ∨ nextIsCommand s (.srst 0) ∨
      (s.sess = .idle ∧ t.errcode = .ok ∧ (nextIsCommand s (.ldkey 1) ∨ ∃ len, nextIsCommand s (.keyrec len))) := by
  rcases session_writers h with ⟨heq, -, -⟩ | (hr | hi) | ⟨hs, ⟨hi, hok, -⟩ | ⟨hi, hok | heq⟩⟩
  · exact absurd heq hne
  · exact .inl hr
  · exact .inr (.inl hi)
  · exact .inr (.inr ⟨hs, hok, .inl hi⟩)
  · exact .inr (.inr ⟨hs, hok, .inr hi⟩)
  · exact absurd heq hne

/-- A keyed session keeps its key until SRST or reset: LDKEY and KEYREC write in an idle session only. -/
theorem keyed_session_kept {s t : State} (h : step s = .next t) (hs : s.sess = .keyed) :
    (t.key = s.key ∧ t.sess = .keyed) ∨ nextIsReset s ∨ nextIsCommand s (.srst 0) := by
  rcases session_writers h with ⟨hkey, hsess, -⟩ | hcleared | ⟨hidle, -⟩
  · exact .inl ⟨hkey, hsess.trans hs⟩
  · exact .inr hcleared
  · rw [hs] at hidle
    cases hidle

/-- Settles O27: each writer by its command's own rule, the rest by `session_writers`. -/
theorem keyIsImmutableInASession : Obligations.KeyIsImmutableInASession := by
  refine ⟨fun s t h => ⟨fun hi => ?cleared, fun hi hs => ?ldkey, fun _ => keyed_of_keyrec_ok h, key_writers h,
    keyed_session_kept h⟩, fun s => ?upper⟩
  case cleared =>
    obtain ⟨-, -, hkey, -⟩ := cleared_of_step h hi
    exact hkey
  case ldkey =>
    obtain ⟨hkey, hsess, -⟩ := keyed_of_ldkey h hi hs
    exact ⟨hkey, hsess⟩
  case upper =>
    exact BitVec.toNat_setWidth_of_le (by decide)

/-- Settles O28: each transition by its command's own rule, the rest by `session_writers`. -/
theorem sessionTransitions : Obligations.SessionTransitions := by
  refine ⟨fun s t h => ⟨fun hi => ?cleared, fun hs hi => ?ldkey, fun len hs hi => ?keyrec, fun hne => ?others⟩,
    rfl, rfl, rfl, status_mod_four_ne_three⟩
  case cleared =>
    obtain ⟨hsess, -⟩ := cleared_of_step h hi
    exact hsess
  case ldkey =>
    obtain ⟨-, hsess, hok⟩ := keyed_of_ldkey h hi hs
    exact ⟨hok, hsess⟩
  case keyrec =>
    rcases keyrec_from_idle h hi hs with ⟨hok, hsess, -⟩ | ⟨hfail, hsess, -⟩
    · exact .inl ⟨hok, hsess⟩
    · exact .inr ⟨hfail, hsess⟩
  case others =>
    rcases session_writers h with ⟨-, heq, -⟩ | (hr | hi) | ⟨hs, ⟨hi, -⟩ | ⟨hi, -⟩⟩
    · exact absurd heq hne
    · exact .inl hr
    · exact .inr (.inl hi)
    · exact .inr (.inr ⟨hs, .inl hi⟩)
    · exact .inr (.inr ⟨hs, .inr hi⟩)

/-- Settles O31: KEYREC's values by its own rule, the rest by `session_writers`. -/
theorem onlyKeyrecSrstResetWriteTrials : Obligations.OnlyKeyrecSrstResetWriteTrials := by
  refine ⟨fun s t h => ⟨fun hi => ?cleared, fun len hi hs => ?keyrec, fun hne => ?others⟩, fun s => ?upper⟩
  case cleared =>
    obtain ⟨-, -, -, -, htrials⟩ := cleared_of_step h hi
    exact htrials
  case keyrec =>
    rcases keyrec_from_idle h hi hs with ⟨hok, -, htrials⟩ | ⟨hfail, -, htrials⟩
    · exact ⟨fun _ => htrials, fun hne => absurd hok hne⟩
    · exact ⟨fun hok => (nomatch hfail.symm.trans hok), fun _ => htrials⟩
  case others =>
    rcases session_writers h with ⟨-, -, heq⟩ | (hr | hi) | ⟨hs, ⟨-, -, heq⟩ | ⟨hi, -⟩⟩
    · exact absurd heq hne
    · exact .inl hr
    · exact .inr (.inl hi)
    · exact absurd heq hne
    · exact .inr (.inr ⟨hs, hi⟩)
  case upper =>
    exact BitVec.toNat_setWidth_of_le (by decide)

end Sys2Proof.Proofs

/-! ## Proofs: ERRCODE and ERR (10_state.md R38, R39) -/

namespace Sys2Proof.Proofs

open Sys2Proof.Machine Sys2Proof.Claims

theorem outcome_srst (len : Len) (x : Sess) (found : Bool) :
    outcome (encode (.srst len)) x found = if len = 0 then .ok else .invalidLength := by
  simp [outcome, Instr.opcode, Instr.len, ← BitVec.toNat_inj]

theorem outcome_begin (len : Len) (x : Sess) (found : Bool) :
    outcome (encode (.begin len)) x found = if len = 0 then .ok else .invalidLength := by
  simp [outcome, Instr.opcode, Instr.len, ← BitVec.toNat_inj]

theorem outcome_ldkey (len : Len) (x : Sess) (found : Bool) :
    outcome (encode (.ldkey len)) x found =
      if len = 1 then if x = .failed then .sessionFailed else if x = .keyed then .keyLocked else .ok
      else .invalidLength := by
  simp [outcome, Instr.opcode, Instr.len, ← BitVec.toNat_inj]

theorem outcome_keyrec (len : Len) (x : Sess) (found : Bool) :
    outcome (encode (.keyrec len)) x found =
      if x = .failed then .sessionFailed else if x = .keyed then .keyLocked
      else if len = 0 ∨ found = false then .keyNotFound else .ok := by
  simp [outcome, Instr.opcode, Instr.len, ← BitVec.toNat_inj]

theorem outcome_xform (len : Len) (x : Sess) (found : Bool) :
    outcome (encode (.xform len)) x found =
      if len = 1 then if x = .failed then .sessionFailed else if x = .idle then .noKey else .ok
      else .invalidLength := by
  simp [outcome, Instr.opcode, Instr.len, ← BitVec.toNat_inj]

theorem outcome_encchr (len : Len) (x : Sess) (found : Bool) :
    outcome (encode (.encchr len)) x found = if len = 1 then .ok else .invalidLength := by
  simp [outcome, Instr.opcode, Instr.len, ← BitVec.toNat_inj]

theorem outcome_decchr (len : Len) (x : Sess) (found : Bool) :
    outcome (encode (.decchr len)) x found = if len = 4 then .ok else .invalidLength := by
  simp [outcome, Instr.opcode, Instr.len, ← BitVec.toNat_inj]

/-- A command's ERRCODE is the outcome of its word (60_exceptions.md R230, R235). -/
theorem errcode_of_exec {i : Instr} {s t : State} (h : exec i s = .next t) :
    t.errcode = outcome (encode i) s.sess (searchKey (byteOperand s)).isSome := by
  cases i with
  | srst len => cases h; simp [outcome_srst, apply_ite State.errcode]
  | begin len => cases h; simp [outcome_begin, apply_ite State.errcode]
  | ldkey len =>
    cases h
    rw [outcome_ldkey, apply_ite State.errcode]
    cases s.sess <;> simp
  | keyrec len =>
    cases h
    rw [outcome_keyrec]
    cases s.sess with
    | idle => cases searchKey (byteOperand s) <;> simp [apply_ite State.errcode]
    | keyed => rfl
    | failed => rfl
  | xform len =>
    cases h
    rw [outcome_xform, apply_ite State.errcode]
    cases s.sess <;> simp
  | encchr len => cases h; simp [outcome_encchr, apply_ite State.errcode]
  | decchr len => cases h; simp [outcome_decchr, apply_ite State.errcode]

/-- A command never reads ERRCODE, and always writes it. -/
theorem exec_ignores_errcode (i : Instr) (s : State) (e : ErrCode) : exec i { s with errcode := e } = exec i s := by
  cases i <;> rfl

theorem commandWrite_ignores_errcode (w : Word) (s : State) (e : ErrCode) :
    commandWrite w { s with errcode := e } = commandWrite w s := by
  unfold commandWrite
  split
  · exact exec_ignores_errcode _ s e
  · rfl

/-- A word that is no command has the outcome ILLEGAL_CMD (60_exceptions.md R235). -/
theorem outcome_of_malformed {w : Word} (hw : rsvOf w ≠ 0 ∨ opOf w = 0 ∨ 8 ≤ opOf w) (x : Sess) (found : Bool) :
    outcome w x found = .illegalCmd := by
  unfold outcome
  rcases hw with hrsv | hop
  · rw [if_pos hrsv]
  · rw [if_pos hop, ite_self]

/-- Every CMD write ends, and its ERRCODE is its outcome (60_exceptions.md R235). -/
theorem commandWrite_outcome (w : Word) (s : State) :
    ∃ t, commandWrite w s = .next t ∧ t.errcode = outcome w s.sess (someKeyPasses (lowByte s)) := by
  rcases commandWrite_next w s with ⟨i, t, hd, he, hc⟩ | ⟨e, hd, hc⟩
  · refine ⟨t, hc, ?_⟩
    rw [errcode_of_exec he, eq_encode_of_decode hd, searchKey_isSome, byteOperand_eq_lowByte]
  · exact ⟨_, hc, (outcome_of_malformed (malformed_of_decode hd) _ _).symm⟩

/-- ERRCODE changes by a CMD write or a reset (10_state.md R38). -/
theorem errcode_writers {s t : State} (h : step s = .next t) (hne : t.errcode ≠ s.errcode) :
    (nextIsReset s ∧ t.errcode = .ok) ∨ ∃ w, nextIsCmdWrite s w := by
  cases stepCase_of_step h with
  | reset _ hr ht =>
    obtain ⟨-, -, -, -, hok, -⟩ := ht
    exact .inl ⟨hr, hok⟩
  | command i _ _ hi => exact .inr ⟨encode i, hi⟩
  | illegal w _ hw => exact .inr ⟨w, hw⟩
  | access => exact absurd rfl hne

/-- Settles O29: the outcome by the order of the checks, the rest by the ways a step can end. -/
theorem everyCommandWritesErrcode : Obligations.EveryCommandWritesErrcode := by
  refine ⟨fun w s => ?written, fun _ _ => errcode_writers, fun s t h hr => ?reset, rfl, status_errcode_le_six⟩
  case written =>
    obtain ⟨t, ht, hout⟩ := commandWrite_outcome w s
    exact ⟨t, ht, hout, fun e => (commandWrite_ignores_errcode w s e).trans ht⟩
  case reset =>
    obtain ⟨-, -, -, -, hok, -⟩ := atReset_of_step h hr
    exact hok

/-- A command that fails sets ERR; one that succeeds keeps ERR, but for SRST, which clears it (10_state.md R39). -/
theorem effect_err {i : Instr} {s t : State} (he : Effect i s t) :
    (t.errcode ≠ .ok ∧ t.err = true) ∨ (t.errcode = .ok ∧ (t.err = s.err ∨ i = .srst 0)) := by
  cases he with
  | error c hc => exact .inl ⟨ne_ok_of_isPlainError hc, rfl⟩
  | empty => exact .inl ⟨nofun, rfl⟩
  | exhausted => exact .inl ⟨nofun, rfl⟩
  | srst hi => exact .inr ⟨rfl, .inr hi⟩
  | _ => exact .inr ⟨rfl, .inl rfl⟩

/-- `effect_err` for a whole step. -/
theorem err_writers {s t : State} (h : step s = .next t) :
    t.err = s.err ∨ (nextIsReset s ∨ nextIsCommand s (.srst 0)) ∨
      ((∃ w, nextIsCmdWrite s w) ∧ t.errcode ≠ .ok ∧ t.err = true) := by
  cases stepCase_of_step h with
  | reset _ hr => exact .inr (.inl (.inl hr))
  | command i rest u hi he =>
    rcases effect_err he with hfail | ⟨-, heq | rfl⟩
    · exact .inr (.inr ⟨⟨encode i, hi⟩, hfail⟩)
    · exact .inl heq
    · exact .inr (.inl (.inr hi))
  | illegal w _ hw => exact .inr (.inr ⟨⟨w, hw⟩, nofun, rfl⟩)
  | access => exact .inl rfl

/-- A CMD write that fails sets ERR (10_state.md R39). -/
theorem err_of_failed_write {s t : State} {w : Word} (h : step s = .next t) (hw : nextIsCmdWrite s w)
    (hne : t.errcode ≠ .ok) : t.err = true := by
  obtain ⟨rest, u, hu, rfl⟩ := commandWrite_of_step h hw
  rcases effect_of_commandWrite hu with ⟨i, -, he⟩ | rfl
  · rcases effect_err he with ⟨-, herr⟩ | ⟨hok, -⟩
    · exact herr
    · exact absurd hok hne
  · rfl

/-- Settles O30: what sets ERR and what clears it, by `err_writers`. -/
theorem errIsSticky : Obligations.ErrIsSticky := by
  refine fun s t h => ⟨fun _ => err_of_failed_write h, fun hi => ?cleared, fun h0 h1 => ?raised,
    fun h1 h0 => ?lowered⟩
  case cleared =>
    obtain ⟨-, herr, -⟩ := cleared_of_step h hi
    exact herr
  case raised =>
    rcases err_writers h with heq | hi | ⟨hw, hne, -⟩
    · exact nomatch h0.symm.trans (heq.symm.trans h1)
    · obtain ⟨-, herr, -⟩ := cleared_of_step h hi
      exact nomatch herr.symm.trans h1
    · exact ⟨hne, hw⟩
  case lowered =>
    rcases err_writers h with heq | hi | ⟨-, -, herr⟩
    · exact nomatch h1.symm.trans (heq.symm.trans h0)
    · exact hi
    · exact nomatch herr.symm.trans h0

end Sys2Proof.Proofs

/-! ## Proofs: what a command reads of DIN (10_state.md R32) -/

namespace Sys2Proof.Proofs

open Sys2Proof.Machine Sys2Proof.Claims

/-- SRST and BEGIN do not read DIN: their writes and a write of DIN commute. -/
theorem exec_setDin_of_control {i : Instr} {s t : State} {len : Len} (hi : i = .srst len ∨ i = .begin len)
    (h : exec i s = .next t) (d : Word) : exec i (s.setDin d) = .next (t.setDin d) := by
  rcases hi with rfl | rfl
  · cases h
    simp only [exec, execSrst, apply_ite (State.setDin · d)]
    rfl
  · cases h
    simp only [exec, execBegin, apply_ite (State.setDin · d)]
    rfl

/-- A byte command reads DIN by its operand alone: with the operand kept, its writes and a write of DIN commute. -/
theorem exec_setDin_of_byteCommand {i : Instr} {s t : State} {len : Len} {d : Word}
    (hi : i = .ldkey len ∨ i = .keyrec len ∨ i = .xform len ∨ i = .encchr len)
    (hd : byteOperand (s.setDin d) = byteOperand s) (h : exec i s = .next t) :
    exec i (s.setDin d) = .next (t.setDin d) := by
  rcases hi with rfl | rfl | rfl | rfl
  · cases h
    simp only [exec, execLdkey, hd, State.setDin_sess, apply_ite (State.setDin · d)]
    cases s.sess <;> rfl
  · cases h
    simp only [exec, execKeyrec, hd, State.setDin_sess]
    cases s.sess with
    | idle =>
      simp only [apply_ite (State.setDin · d)]
      cases searchKey (byteOperand s) <;> rfl
    | keyed => rfl
    | failed => rfl
  · cases h
    simp only [exec, execXform, xformEffect, hd, State.setDin_sess, apply_ite (State.setDin · d)]
    cases s.sess <;> rfl
  · cases h
    simp only [exec, execEncchr, hd, apply_ite (State.setDin · d)]
    rfl

/-- Settles O38: the operand is the same byte when DIN[7:0] is. -/
theorem upperDinIsIgnored : Obligations.UpperDinIsIgnored := by
  refine ⟨fun len i s d hi hlow => ?bytes, fun len i s d hi => ?control⟩
  case bytes =>
    have hd : byteOperand (s.setDin d) = byteOperand s := by
      rw [byteOperand_eq_lowByte, byteOperand_eq_lowByte]
      exact congrArg (BitVec.ofNat 8) hlow
    obtain ⟨t, ht, -⟩ := exec_effect i s
    exact ⟨t, ht, exec_setDin_of_byteCommand hi hd ht⟩
  case control =>
    obtain ⟨t, ht, -⟩ := exec_effect i s
    exact ⟨t, ht, exec_setDin_of_control hi ht d⟩

end Sys2Proof.Proofs

/-! ## Proofs: the register port, one event at a time (20_memory.md R60 to R70) -/

namespace Sys2Proof.Proofs

open Sys2Proof.Machine Sys2Proof.Claims

/-- A step performs the host's next event on the state with that event taken (20_memory.md R60). -/
theorem step_of_host_cons {s : State} {ev : HostEvent} {rest : List HostEvent} (h : s.host = ev :: rest) :
    step s = perform ev (s.setHost rest) := by
  simp [step, stepHost, h]

/-- With no event to come, a step holds the state (60_exceptions.md R244). -/
theorem step_of_host_nil {s : State} (h : s.host = []) : step s = .next (s.setBus .quiet) := by
  simp [step, stepHost, h]

theorem readReg_setBus (r : Reg) (s : State) (b : BusReply) : readReg r (s.setBus b) = readReg r s := by
  cases r <;> rfl

/-- A read of a register answers its value and changes nothing else (20_memory.md R62, R68). -/
theorem step_read_offset (r : Reg) {s : State} {rest : List HostEvent} (h : s.host = .read 4 r.offset :: rest) :
    step s = .next ((s.setHost rest).setBus (.readData (readReg r s))) := by
  simp [step_of_host_cons h, perform, hostRead, readReg_setHost]

/-- A write to a register is acknowledged once its effect is complete (20_memory.md R62, R70). -/
theorem step_write_offset (r : Reg) {s t : State} {rest : List HostEvent} {v : Word}
    (h : s.host = .write 4 r.offset v :: rest) (hw : writeReg r v (s.setHost rest) = .next t) :
    step s = .next (t.setBus .written) := by
  simp [step_of_host_cons h, perform, hostWrite, hw, acknowledge]

/-- A CMD write runs the command of its word, whole, and is then acknowledged (20_memory.md R70). -/
theorem step_cmd_write {s : State} {rest : List HostEvent} {w : Word} (h : s.host = .write 4 0 w :: rest) :
    ∃ t, commandWrite w (s.setHost rest) = .next t ∧ step s = .next (t.setBus .written) := by
  obtain ⟨t, ht⟩ := writeReg_total .cmd w (s.setHost rest)
  exact ⟨t, ht, step_write_offset .cmd h ht⟩

theorem commandWrite_of_decode {w : Word} {i : Instr} (h : decode w = .ok i) (s : State) :
    commandWrite w s = exec i s := by
  rw [eq_encode_of_decode h, commandWrite_encode]

theorem decode_of_decodeTableWord {nbits w : Nat} {i : Instr} (h : decodeTableWord nbits w = some i) :
    decode (tableWord nbits w) = .ok i := by
  unfold decodeTableWord at h
  split at h
  · cases hd : decode (tableWord nbits w) with
    | ok j => simpa [hd, Except.toOption] using h
    | error e => simp [hd, Except.toOption] at h
  · cases h

/-- Settles O7: a CMD write runs `commandWrite`, which is `exec` on a word that decodes; `withFetchWord` puts such a
write first. -/
theorem stepRunsTheDecodedCommand : Obligations.StepRunsTheDecodedCommand := by
  refine ⟨fun s rest w i hhost hd => ?_, fun s nbits w i hd => ?_⟩
  · obtain ⟨t, ht, hstep⟩ := step_cmd_write hhost
    exact ⟨t, (commandWrite_of_decode hd _).symm.trans ht, hstep⟩
  · obtain ⟨t, ht, hstep⟩ := step_cmd_write (s := s.withFetchWord nbits w) rfl
    exact ⟨t, (commandWrite_of_decode (decode_of_decodeTableWord hd) _).symm.trans ht, hstep⟩

/-- STATUS reads as the sum of its fields (10_state.md R37). -/
theorem readReg_status (s : State) : readReg .status s = BitVec.ofNat 32 (statusNat s) := by
  obtain ⟨hlayout, -⟩ := statusLayout
  rw [statusNat, ← hlayout s, BitVec.ofNat_toNat, BitVec.setWidth_eq]

/-- TRIALS reads zero-extended (20_memory.md R62). -/
theorem readReg_trials (s : State) : readReg .trials s = BitVec.ofNat 32 s.trials.toNat :=
  (BitVec.ofNat_toNat 32 s.trials).symm

/-- A write to any register but CMD and DIN is ignored (20_memory.md R62). -/
theorem step_ignored_write (r : Reg) (hcmd : r ≠ .cmd) (hdin : r ≠ .din) {s : State} {rest : List HostEvent} {v : Word}
    (h : s.host = .write 4 r.offset v :: rest) : step s = .next ((s.setHost rest).setBus .written) := by
  obtain ⟨t, ht⟩ := writeReg_total r v (s.setHost rest)
  obtain ⟨hr, -⟩ | ⟨hr, -⟩ | ⟨-, -, rfl⟩ := writeReg_next ht
  · exact absurd hr hcmd
  · exact absurd hr hdin
  · exact step_write_offset r h ht

/-- Settles O8: each offset is the offset of one register, and the port's rule for that register is the table's row. -/
theorem registerWindow : Obligations.RegisterWindow := by
  refine fun s rest => ⟨fun off hhost => ?read, fun off v hhost => ?write⟩
  case read =>
    refine ⟨?cmd, ?din, ?dout, ?status, ?key, ?pos, ?trials, ?reserved⟩ <;> rintro rfl
    case cmd => exact step_read_offset .cmd hhost
    case din => exact step_read_offset .din hhost
    case dout => exact step_read_offset .dout hhost
    case status => rw [← readReg_status]; exact step_read_offset .status hhost
    case key => rw [← zextByte_eq_zext]; exact step_read_offset .key hhost
    case pos => exact step_read_offset .pos hhost
    case trials => rw [← readReg_trials]; exact step_read_offset .trials hhost
    case reserved => exact step_read_offset .reserved hhost
  case write =>
    refine ⟨?cmd, ?din, ?ignored⟩
    case cmd => rintro rfl; exact step_cmd_write hhost
    case din => rintro rfl; exact step_write_offset .din hhost rfl
    case ignored =>
      rintro (rfl | rfl | rfl | rfl | rfl | rfl)
      · exact step_ignored_write .dout nofun nofun hhost
      · exact step_ignored_write .status nofun nofun hhost
      · exact step_ignored_write .key nofun nofun hhost
      · exact step_ignored_write .pos nofun nofun hhost
      · exact step_ignored_write .trials nofun nofun hhost
      · exact step_ignored_write .reserved nofun nofun hhost

end Sys2Proof.Proofs

/-! ## Proofs: runs of many steps (20_memory.md R63, R68) -/

namespace Sys2Proof.Proofs

open Sys2Proof.Machine

theorem run_succ_of_step {s t : State} (h : step s = .next t) (k : Nat) : core.run (k + 1) s = core.run k t := by
  simp [Host.Core.run, Host.Check.core_step, h]

theorem readsSeen_succ_of_step {s t : State} (h : step s = .next t) (k : Nat) :
    Safety.readsSeen (k + 1) s = Safety.readValue t.bus ++ Safety.readsSeen k t := by
  simp [Safety.readsSeen, h]

/-- A step takes one event, and adds none. -/
theorem step_host {s t : State} (h : step s = .next t) : t.host = s.host.tail := by
  cases change_of_step h
  case command w i rest u hhost hd he => cases he <;> simp [hhost]
  all_goals simp [*]

/-- Settles O9, by induction on the number of reads: a read leaves the register's value, and the events after it. -/
theorem repeatedReadsAgree : Obligations.RepeatedReadsAgree := by
  intro r k
  induction k with
  | zero =>
    rintro s rest rfl
    exact ⟨rfl, s.bus, rfl⟩
  | succ k ih =>
    intro s rest hhost
    rw [List.replicate_succ, List.cons_append] at hhost
    have hstep := step_read_offset r hhost
    obtain ⟨hseen, b, hrun⟩ := ih _ rest (step_host hstep ▸ congrArg List.tail hhost)
    refine ⟨?_, b, (run_succ_of_step hstep k).trans hrun⟩
    rw [readsSeen_succ_of_step hstep, hseen, readReg_setBus, readReg_setHost]
    rfl

/-- An admitted access is 4 bytes wide at a multiple of 4 (20_memory.md R63). -/
theorem admitted_iff_mod_four (bytes : Nat) (off : BitVec 5) :
    admitted bytes off = true ↔ bytes = 4 ∧ off.toNat % 4 = 0 := by
  rw [admitted_iff, ← BitVec.toNat_inj, BitVec.extractLsb'_toNat]
  simp

theorem hostRead_refused_iff (bytes : Nat) (off : BitVec 5) (s : State) :
    hostRead bytes off s = .refused .accessNotAdmitted ↔ ¬ (bytes = 4 ∧ off.toNat % 4 = 0) := by
  rw [← admitted_iff_mod_four]
  cases h : admitted bytes off <;> simp [hostRead, h]

theorem hostWrite_refused_iff (bytes : Nat) (off : BitVec 5) (v : Word) (s : State) :
    hostWrite bytes off v s = .refused .accessNotAdmitted ↔ ¬ (bytes = 4 ∧ off.toNat % 4 = 0) := by
  rw [← admitted_iff_mod_four]
  cases h : admitted bytes off with
  | false => simp [hostWrite, h]
  | true =>
    obtain ⟨t, ht⟩ := hostWrite_total h v s
    simp [ht]

/-- An event that is refused changes no register, and BERR is signalled (20_memory.md R63). -/
theorem serve_of_refused {ev : HostEvent} {s : State} {r : Refusal} (h : perform ev s = .refused r) :
    s.serve ev = s.setBus .busError := by
  have hstep : step (s.setHost (ev :: s.host)) = .refused r := (step_of_host_cons rfl).trans h
  simp [State.serve, hstep]

/-- Settles O10: a step is the read or the write it performs, and these are refused exactly when not admitted. -/
theorem onlyAlignedWordAccessesAdmitted : Obligations.OnlyAlignedWordAccessesAdmitted := by
  refine ⟨fun s rest bytes off hhost => ?_, fun s rest bytes off v hhost => ?_, fun s bytes off v hbad => ⟨?_, ?_⟩⟩
  · rw [step_of_host_cons hhost]
    exact hostRead_refused_iff bytes off _
  · rw [step_of_host_cons hhost]
    exact hostWrite_refused_iff bytes off v _
  · exact serve_of_refused ((hostRead_refused_iff bytes off s).2 hbad)
  · exact serve_of_refused ((hostWrite_refused_iff bytes off v s).2 hbad)

/-- An admitted event is performed (20_memory.md R63). -/
theorem perform_total {ev : HostEvent} (h : Safety.eventAdmitted ev = true) (s : State) :
    ∃ t, perform ev s = .next t := by
  cases ev with
  | read bytes off => exact ⟨_, if_pos h⟩
  | write bytes off v => exact hostWrite_total h v s
  | reset => exact ⟨_, rfl⟩
  | resetDuringCommand w fate => exact ⟨_, rfl⟩

/-- A host that issues admitted accesses only is not stopped at its next event, nor, by the idle step, after its last. -/
theorem step_of_hostAdmitted {s : State} (h : Safety.hostAdmitted s = true) :
    ∃ t, step s = .next t ∧ Safety.hostAdmitted t = true := by
  have htotal : ∃ t, step s = .next t := by
    cases hhost : s.host with
    | nil => exact ⟨_, step_of_host_nil hhost⟩
    | cons ev rest =>
      rw [step_of_host_cons hhost]
      exact perform_total (List.all_eq_true.1 h ev (by simp [hhost])) _
  obtain ⟨t, ht⟩ := htotal
  refine ⟨t, ht, List.all_eq_true.2 fun ev hev => List.all_eq_true.1 h ev ?_⟩
  rw [step_host ht] at hev
  exact List.mem_of_mem_tail hev

/-- Settles O11, by induction on the number of steps. -/
theorem admittedRunsNeverStop : Obligations.AdmittedRunsNeverStop := by
  intro k
  induction k with
  | zero => exact fun s h => ⟨s, rfl, h⟩
  | succ k ih =>
    intro s h
    obtain ⟨u, hu, hadm⟩ := step_of_hostAdmitted h
    rw [run_succ_of_step hu]
    exact ih u hadm

end Sys2Proof.Proofs

/-! ## Proofs: several blocks on one bus (20_memory.md R61, 60_exceptions.md R252) -/

namespace Sys2Proof.Proofs

open Sys2Proof.Machine

/-- An address outside a block's window does not reach the block (20_memory.md R61). -/
theorem access_of_outside {b : Placed} {a : BusAccess}
    (h : ¬ (32 * b.base.index ≤ a.addr ∧ a.addr ≤ 32 * b.base.index + 31)) : b.access a = b := by
  have hoff : offsetIn b.base a.addr = none := if_neg h
  simp [Placed.access, hoff]

/-- An address inside a block's window is served at its offset (20_memory.md R61). -/
theorem access_of_inside {b : Placed} {a : BusAccess} {off : Nat} (hoff : off ≤ 31)
    (h : a.addr = 32 * b.base.index + off) :
    b.access a = { b with state := b.state.serve (a.event (BitVec.ofNat 5 off)) } := by
  have hin : offsetIn b.base a.addr = some (BitVec.ofNat 5 off) := by
    simp [offsetIn, baseAddr, h, hoff]
  simp [Placed.access, hin]

/-- The blocks of a platform each get the access on their own. -/
theorem access_getElem? {p : Platform} {n : Nat} {b : Placed} (h : p.blocks[n]? = some b) (a : BusAccess) :
    (p.access a).blocks[n]? = some (b.access a) := by
  simp [Platform.access, h]

/-- Distinct places of a well-formed platform have distinct bases. -/
theorem index_ne_of_wf {p : Platform} (hwf : p.wf = true) {m n : Nat} {b d : Placed} (hne : m ≠ n)
    (hb : p.blocks[n]? = some b) (hd : p.blocks[m]? = some d) : d.base.index ≠ b.base.index := by
  intro hindex
  have hnodup : (p.blocks.map (·.base)).Nodup := of_decide_eq_true hwf
  have hbase : d.base = b.base := congrArg Config.Base.mk hindex
  have hm : m < (p.blocks.map (·.base)).length := by
    simpa using (List.getElem?_eq_some_iff.1 hd).1
  exact hne ((List.getElem?_inj hm hnodup).1 (by simp [hb, hd, hbase]))

/-- Settles O55: an access is each block's own access, windows at distinct bases are disjoint, and a reset modifies one
place of the list. -/
theorem instancesShareNothing : Obligations.InstancesShareNothing := by
  refine fun p a n b hb => ⟨fun hout => ?outside, fun off hoff haddr => ⟨?inside, fun hwf m d hne hd => ?others⟩,
    fun m d hne hd => ?reset⟩
  case outside => rw [access_getElem? hb, access_of_outside hout]
  case inside => rw [access_getElem? hb, access_of_inside hoff haddr]
  case others =>
    have hindex := index_ne_of_wf hwf hne hb hd
    rw [access_getElem? hd, access_of_outside (by omega)]
  case reset => simpa [Platform.resetBlock, List.getElem?_modify, hne.symm] using hd

end Sys2Proof.Proofs

/-! ## Proofs: the encoding and the checks of a CMD write (30_encoding.md R90 to R95, R100) -/

namespace Sys2Proof.Proofs

open Sys2Proof.Machine Sys2Proof.Claims

/-- Settles O1: the encoder and the decoder are inverse to each other. -/
theorem decodeInvertsEncode : Obligations.DecodeInvertsEncode :=
  fun _ i => ⟨eq_encode_of_decode, fun hw => hw ▸ decode_encode i⟩

/-- Every command has an OP of 1 to 7 (30_encoding.md R92). -/
theorem opcode_range (i : Instr) : 1 ≤ i.opcode.toNat ∧ i.opcode.toNat ≤ 7 := by
  cases i <;> simp [Instr.opcode]

/-- A word with RSV not 0 or a reserved OP is no command: no command's own word has either (30_encoding.md R95). -/
theorem decode_ne_ok_of_malformed {w : Word} (hw : rsvOf w ≠ 0 ∨ opOf w = 0 ∨ 8 ≤ opOf w) (i : Instr) :
    decode w ≠ .ok i := by
  intro hd
  obtain ⟨hlow, hhigh⟩ := opcode_range i
  rw [eq_encode_of_decode hd, rsvOf_encode, opOf_encode] at hw
  omega

/-- A word with RSV = 0 and a legal OP is the word of some command, whatever its LEN (30_encoding.md R94, R100). -/
theorem exists_encode_eq {w : Word} (hrsv : rsvOf w = 0) (hlow : 1 ≤ opOf w) (hhigh : opOf w ≤ 7) :
    ∃ i, encode i = w := by
  cases hd : decode w with
  | ok i => exact ⟨i, (eq_encode_of_decode hd).symm⟩
  | error e =>
    have hw := malformed_of_decode hd
    omega

/-- A CMD write of a word that is no command raises ILLEGAL_CMD and does nothing else (30_encoding.md R94, R95). -/
theorem commandWrite_of_malformed {w : Word} (hw : rsvOf w ≠ 0 ∨ opOf w = 0 ∨ 8 ≤ opOf w) (s : State) :
    commandWrite w s = .next (s.raiseErr .illegalCmd) := by
  rcases commandWrite_next w s with ⟨i, -, hd, -⟩ | ⟨-, -, hc⟩
  · exact absurd hd (decode_ne_ok_of_malformed hw i)
  · exact hc

/-- Settles O4: `raiseErr` writes ERRCODE and ERR alone. -/
theorem illegalEncodingsHaveNoOtherEffect : Obligations.IllegalEncodingsHaveNoOtherEffect :=
  fun _ s hw => commandWrite_of_malformed hw s

/-- The LEN that a command accepts, read from its word (30_encoding.md R94). -/
theorem wellFormed_iff_accepts (i : Instr) :
    i.wellFormed = true ↔ accepts (opOf (encode i)) (lenOf (encode i)) := by
  cases i <;> simp [accepts, Instr.wellFormed, Instr.opcode, Instr.len, ← BitVec.toNat_inj]

/-- A command with a LEN it does not accept raises INVALID_LENGTH and does nothing else (30_encoding.md R94). -/
theorem exec_of_not_wellFormed {i : Instr} (hi : i.wellFormed = false) (s : State) :
    exec i s = .next (s.raiseErr .invalidLength) := by
  cases i
  case keyrec => cases hi
  all_goals exact congrArg Host.Outcome.next (if_neg (ne_true_of_eq_false hi))

/-- Settles O5: the first two checks are those of the word, the third is the command's own. -/
theorem commandWriteChecksInOrder : Obligations.CommandWriteChecksInOrder := by
  refine fun w s => ⟨fun hrsv => ?reservedBits, fun _ hop => ?reservedOp, fun hrsv hlow hhigh hlen => ?length,
    fun hrsv hlow hhigh _ => ?command⟩
  case reservedBits => exact commandWrite_of_malformed (.inl hrsv) s
  case reservedOp => exact commandWrite_of_malformed (.inr hop) s
  case length =>
    obtain ⟨i, rfl⟩ := exists_encode_eq hrsv hlow hhigh
    rw [← wellFormed_iff_accepts, Bool.not_eq_true] at hlen
    rw [commandWrite_encode]
    exact exec_of_not_wellFormed hlen s
  case command =>
    obtain ⟨i, rfl⟩ := exists_encode_eq hrsv hlow hhigh
    exact ⟨i, rfl, commandWrite_encode i s⟩

/-- Settles O2: the canonical words evaluate; the OP values, the LEN rule and the reserved OP values hold of every
command. -/
theorem opcodeMapAndCanonicalWords : Obligations.OpcodeMapAndCanonicalWords := by
  refine ⟨⟨rfl, rfl, rfl, rfl, rfl, rfl, rfl, rfl⟩, fun i => ?opcode, wellFormed_iff_accepts,
    fun _ i hop => decode_ne_ok_of_malformed (.inr hop) i⟩
  case opcode =>
    rw [opOf_encode]
    cases i <;> rfl

/-- Settles O3: 0x37 is DECCHR with a LEN it does not accept, and 0x95 has RSV not 0. -/
theorem workedEncodings : Obligations.WorkedEncodings := by
  refine ⟨rfl, rfl, rfl, rfl, rfl, fun s => ?length, by decide, by decide, fun s => ?illegal⟩
  case length => exact (commandWrite_of_decode rfl s).trans (exec_of_not_wellFormed (i := .decchr 3) rfl s)
  case illegal => exact commandWrite_of_malformed (.inl (by decide)) s

end Sys2Proof.Proofs

/-! ## Proofs: the pseudo-instructions (30_encoding.md R98, R99) -/

namespace Sys2Proof.Proofs

open Sys2Proof.Machine Sys2Proof.Claims

/-- Settles O54: a statement evaluates to the access it stands for, once an operand byte is written as the spec extends
it. -/
theorem pseudoInstructionExpansions : Obligations.PseudoInstructionExpansions := by
  unfold Obligations.PseudoInstructionExpansions
  simp only [← zextByte_eq_zext]
  exact ⟨rfl, rfl, fun _ => rfl, fun _ => rfl, fun _ => rfl, fun _ => rfl⟩

end Sys2Proof.Proofs

/-! ## Proofs: the tables and the nibble function (40_cipher.md R120 to R125) -/

namespace Sys2Proof.Proofs

open Sys2Proof.Machine Sys2Proof.Claims

/-- Settles O41: both tables are closed lists of 16 entries. -/
theorem tablesAreInvolutions : Obligations.TablesAreInvolutions := by
  unfold Obligations.TablesAreInvolutions
  decide

@[simp] theorem table1_table1 (x : Nibble) : lookup table1 (lookup table1 x.toNat).toNat = x := by
  obtain ⟨hinv, -⟩ := tablesAreInvolutions
  obtain ⟨hx, -⟩ := hinv x.toNat x.isLt
  exact BitVec.eq_of_toNat_eq hx

@[simp] theorem table2_table2 (x : Nibble) : lookup table2 (lookup table2 x.toNat).toNat = x := by
  obtain ⟨hinv, -⟩ := tablesAreInvolutions
  obtain ⟨-, -, hx, -⟩ := hinv x.toNat x.isLt
  exact BitVec.eq_of_toNat_eq hx

theorem table2_ne (x : Nibble) : lookup table2 x.toNat ≠ x := by
  obtain ⟨hinv, -⟩ := tablesAreInvolutions
  obtain ⟨-, -, -, hx⟩ := hinv x.toNat x.isLt
  exact fun h => hx (congrArg BitVec.toNat h)

/-- The floored remainder modulo 256 and then 16 is the 4-bit value of the integer (00_scope.md R12). -/
theorem wrapNibble_eq_toNat (x : Int) : wrapNibble x = (BitVec.ofInt 4 x).toNat := by
  rw [BitVec.toNat_ofInt, wrapNibble, Int.emod_emod_of_dvd x (by decide)]
  rfl

theorem wrapNibble_cast (x : Int) : (wrapNibble x : Int) = x % 256 % 16 := by
  rw [wrapNibble, Int.toNat_of_nonneg (Int.emod_nonneg _ (by decide))]

theorem wrapNibble_lt (x : Int) : wrapNibble x < 16 := by
  rw [wrapNibble_eq_toNat]
  exact BitVec.isLt _

theorem ofInt_four_sub (x y : Int) : BitVec.ofInt 4 (x - y) = BitVec.ofInt 4 x - BitVec.ofInt 4 y := by
  rw [Int.sub_eq_add_neg, BitVec.ofInt_add, BitVec.ofInt_neg, BitVec.sub_eq_add_neg]

/-- `aux` as a nibble is bits 7:4 of the position (40_cipher.md R124). -/
theorem ofInt_four_aux (p : Nat) : BitVec.ofInt 4 ((p >>> 4 : Nat) % 256) = BitVec.ofNat 4 (p / 16) := by
  apply BitVec.eq_of_toNat_eq
  rw [BitVec.toNat_ofInt, BitVec.toNat_ofNat, Nat.shiftRight_eq_div_pow]
  omega

/-- Settles O43: reduction to 4 bits commutes with every sum of R123, so each may be taken modulo 16. -/
theorem shuffleIsTheNibbleDatapath : Obligations.ShuffleIsTheNibbleDatapath := by
  intro n p H L
  simp only [shuffle, datapath, wrapNibble_eq_toNat, BitVec.ofInt_add, ofInt_four_sub, ofInt_four_aux,
    BitVec.ofInt_natCast, BitVec.ofNat_toNat, BitVec.setWidth_eq]

/-- Settles O42: the right side is `shuffle`'s own definition, with the value of its last step below 16. -/
theorem shuffleFormula : Obligations.ShuffleFormula := by
  rintro n p H L aux t1 t2 t3 haux rfl rfl rfl
  have haux' : aux = (p >>> 4 : Nat) % 256 := by
    rw [haux, Nat.shiftRight_eq_div_pow, Int.natCast_ediv]
    rfl
  subst haux'
  rw [shuffle, BitVec.toNat_ofNat, Nat.mod_eq_of_lt (wrapNibble_lt _), wrapNibble_cast]
  rfl

theorem nibble_ofNat_congr {a b : Nat} (h : a % 16 = b % 16) : BitVec.ofNat 4 a = BitVec.ofNat 4 b :=
  BitVec.eq_of_toNat_eq h

/-- `shuffle` reads bits 7:0 of the position alone (40_cipher.md R125). -/
theorem shuffle_congr {p q : Nat} (h : p % 256 = q % 256) (n H L : Nibble) : shuffle n p H L = shuffle n q H L := by
  have hP : BitVec.ofNat 4 p = BitVec.ofNat 4 q := nibble_ofNat_congr (by omega)
  have hA : BitVec.ofNat 4 (p / 16) = BitVec.ofNat 4 (q / 16) := nibble_ofNat_congr (by omega)
  rw [shuffleIsTheNibbleDatapath, shuffleIsTheNibbleDatapath, hP, hA]

/-- At nibble 0, position 0 and key 0 each of the eight position bits changes the result (40_cipher.md R125). -/
theorem shuffle_ne_of_position_bit : ∀ k : Nat, k < 8 → shuffle 0 0 0 0 ≠ shuffle 0 (0 ^^^ 2 ^ k) 0 0 := by
  decide

/-- Settles O44: 256 divides 2^32, so both reductions keep the position modulo 256. -/
theorem shuffleUsesEightPositionBits : Obligations.ShuffleUsesEightPositionBits := by
  refine ⟨fun n p H L => ?low, fun k hk => ⟨0, 0, 0, 0, by decide, shuffle_ne_of_position_bit k hk⟩,
    fun n p H L => ?wrapped⟩
  case low => exact shuffle_congr (Nat.mod_mod p 256).symm n H L
  case wrapped => exact shuffle_congr (Nat.mod_mod_of_dvd p (by decide)) n H L

end Sys2Proof.Proofs

/-! ## Proofs: the transform undoes itself (40_cipher.md R126 to R128) -/

namespace Sys2Proof.Proofs

open Sys2Proof.Machine Sys2Proof.Claims

/-- Table2 conjugated by the translation by `c`, and that conjugated by Table1 (40_cipher.md R127): a conjugate of an
involution without fixed points is one itself. -/
def conjugate (c x : Nibble) : Nibble :=
  lookup table1 (lookup table2 (lookup table1 x.toNat + c).toNat - c).toNat

theorem conjugate_conjugate (c x : Nibble) : conjugate c (conjugate c x) = x := by
  simp only [conjugate, table1_table1, BitVec.sub_add_cancel, table2_table2, BitVec.add_sub_cancel]

theorem conjugate_ne (c x : Nibble) : conjugate c x ≠ x := by
  intro h
  have hfixed : lookup table2 (lookup table1 x.toNat + c).toNat - c = lookup table1 x.toNat :=
    (table1_table1 _).symm.trans (congrArg (fun y : Nibble => lookup table1 y.toNat) h)
  exact table2_ne _ (BitVec.sub_eq_iff_eq_add.1 hfixed)

/-- `shuffle` translates by `p + H`, conjugates, and translates back (40_cipher.md R127). -/
theorem shuffle_eq_conjugate (n : Nibble) (p : Nat) (H L : Nibble) :
    shuffle n p H L =
      conjugate (L + BitVec.ofNat 4 (p / 16) - BitVec.ofNat 4 p - H) (n + (BitVec.ofNat 4 p + H)) -
        (BitVec.ofNat 4 p + H) := by
  have hinput : ∀ P : Nibble, n + P + H = n + (P + H) := fun P => by ring
  have hshift : ∀ t A P : Nibble, t + L + A - P - H = t + (L + A - P - H) := fun t A P => by ring
  have hunshift : ∀ t A P : Nibble, t + H + P - L - A = t - (L + A - P - H) := fun t A P => by ring
  have houtput : ∀ t P : Nibble, t - P - H = t - (P + H) := fun t P => by ring
  simp only [shuffleIsTheNibbleDatapath n p H L, datapath, conjugate, hinput, hshift, hunshift]
  exact houtput _ _

theorem shuffle_shuffle (n : Nibble) (p : Nat) (H L : Nibble) : shuffle (shuffle n p H L) p H L = n := by
  simp only [shuffle_eq_conjugate, BitVec.sub_add_cancel, conjugate_conjugate, BitVec.add_sub_cancel]

theorem shuffle_ne (n : Nibble) (p : Nat) (H L : Nibble) : shuffle n p H L ≠ n := by
  rw [shuffle_eq_conjugate, Ne, BitVec.sub_eq_iff_eq_add]
  exact conjugate_ne _ _

@[simp] theorem hiNibble_append (h l : Nibble) : hiNibble (h ++ l) = h := by
  rw [hiNibble, BitVec.extractLsb'_append_eq_of_le (by decide)]
  exact BitVec.extractLsb'_eq_self

@[simp] theorem loNibble_append (h l : Nibble) : loNibble (h ++ l) = l := by
  rw [loNibble, BitVec.extractLsb'_append_eq_of_add_le (by decide)]
  exact BitVec.extractLsb'_eq_self

@[simp] theorem hiNibble_append_loNibble (b : Byte) : hiNibble b ++ loNibble b = b :=
  (BitVec.extractLsb'_append_extractLsb'_eq_extractLsb' rfl).trans BitVec.extractLsb'_eq_self

theorem hiNibble_toNat (b : Byte) : (hiNibble b).toNat = b.toNat / 16 := by
  rw [hiNibble, BitVec.extractLsb'_toNat, Nat.shiftRight_eq_div_pow]
  omega

theorem loNibble_toNat (b : Byte) : (loNibble b).toNat = b.toNat % 16 := by
  rw [loNibble, BitVec.extractLsb'_toNat, Nat.shiftRight_zero]

theorem append_toNat (h l : Nibble) : (h ++ l : Byte).toNat = h.toNat * 16 + l.toNat := by
  rw [BitVec.toNat_append, ← Nat.shiftLeft_add_eq_or_of_lt l.isLt, Nat.shiftLeft_eq]

@[simp] theorem hiNibble_transformByte (b : Byte) (p : Nat) (K : Byte) :
    hiNibble (transformByte b p K) = shuffle (hiNibble b) p (hiNibble K) (loNibble K) :=
  hiNibble_append _ _

@[simp] theorem loNibble_transformByte (b : Byte) (p : Nat) (K : Byte) :
    loNibble (transformByte b p K) = shuffle (loNibble b) (p + 1) (hiNibble K) (loNibble K) :=
  loNibble_append _ _

/-- Settles O45: `transformByte` appends the results of the two nibbles. -/
theorem transformByteNibbles : Obligations.TransformByteNibbles := by
  intro b p K H L hH hL
  obtain rfl : H = hiNibble K := BitVec.eq_of_toNat_eq (hH.trans (hiNibble_toNat K).symm)
  obtain rfl : L = loNibble K := BitVec.eq_of_toNat_eq (hL.trans (loNibble_toNat K).symm)
  rw [transformByte, append_toNat, ← hiNibble_toNat, ← loNibble_toNat]
  simp only [BitVec.ofNat_toNat, BitVec.setWidth_eq]

theorem transformByte_transformByte (b : Byte) (p : Nat) (K : Byte) :
    transformByte (transformByte b p K) p K = b := by
  rw [transformByte, hiNibble_transformByte, loNibble_transformByte, shuffle_shuffle, shuffle_shuffle,
    hiNibble_append_loNibble]

theorem transformByte_ne (b : Byte) (p : Nat) (K : Byte) : transformByte b p K ≠ b := by
  intro h
  have hhi := hiNibble_transformByte b p K
  rw [h] at hhi
  exact shuffle_ne _ _ _ _ hhi.symm

/-- Settles O46: `shuffle` is a conjugate of Table2, and `transformByte` applies it to each nibble. -/
theorem cipherIsAnInvolutionWithoutFixedPoints : Obligations.CipherIsAnInvolutionWithoutFixedPoints := by
  refine ⟨fun n p H L => ⟨shuffle_shuffle n p H L, shuffle_ne n p H L⟩,
    fun b p K => ⟨transformByte_transformByte b p K, ?high, ?low, transformByte_ne b p K⟩⟩
  case high =>
    rw [← hiNibble_toNat, ← hiNibble_toNat, hiNibble_transformByte, Ne, BitVec.toNat_inj]
    exact shuffle_ne _ _ _ _
  case low =>
    rw [← loNibble_toNat, ← loNibble_toNat, loNibble_transformByte, Ne, BitVec.toNat_inj]
    exact shuffle_ne _ _ _ _

/-- Settles O48: each byte meets the same position and key both times. -/
theorem payloadRoundTrip : Obligations.PayloadRoundTrip := by
  intro payload K
  rw [payloadTransform, payloadTransform, List.mapIdx_mapIdx, List.mapIdx_eq_iff]
  intro i
  simp [Function.comp_def, transformByte_transformByte]

end Sys2Proof.Proofs

/-! ## Proofs: BEGIN and XFORM (40_cipher.md R130, R131) -/

namespace Sys2Proof.Proofs

open Sys2Proof.Machine Sys2Proof.Claims

/-- Settles O18: BEGIN writes POS and ERRCODE alone. -/
theorem beginZeroesPosition : Obligations.BeginZeroesPosition := by
  refine fun s => ⟨exec_begin_zero s, fun len hlen => ?length⟩
  case length => exact exec_of_not_wellFormed (i := .begin len) (beq_false_of_ne hlen) s

theorem exec_xform_failed {s : State} (hs : s.sess = .failed) :
    exec (.xform 1) s = .next (s.raiseErr .sessionFailed) := by
  simp [exec, execXform, hs]

theorem exec_xform_idle {s : State} (hs : s.sess = .idle) : exec (.xform 1) s = .next (s.raiseErr .noKey) := by
  simp [exec, execXform, hs]

theorem lowBits_zextByte (b : Byte) : (zextByte b).extractLsb' 0 8 = b := by
  apply BitVec.eq_of_toNat_eq
  rw [BitVec.extractLsb'_toNat, zextByte, BitVec.toNat_setWidth_of_le (by decide), Nat.shiftRight_zero]
  exact Nat.mod_eq_of_lt b.isLt

theorem zextByte_injective : Function.Injective zextByte :=
  Function.LeftInverse.injective lowBits_zextByte

/-- A byte written zero-extended to DIN is the operand of the next command (30_encoding.md R97). -/
@[simp] theorem byteOperand_setDin_zextByte (s : State) (b : Byte) : byteOperand (s.setDin (zextByte b)) = b :=
  lowBits_zextByte b

/-- `xformEffect` in the words of the statements. -/
theorem xformEffect_eq (s : State) :
    xformEffect s = { s with
      dout := zext (transformByte (lowByte s) s.pos.toNat s.key), pos := s.pos + 2, errcode := .ok } := by
  rw [← zextByte_eq_zext, ← byteOperand_eq_lowByte]
  rfl

/-- `transformByte` reads its two positions modulo 256 (40_cipher.md R125). -/
theorem transformByte_congr {p q : Nat} (h : p % 256 = q % 256) (b K : Byte) :
    transformByte b p K = transformByte b q K := by
  have hsucc : (p + 1) % 256 = (q + 1) % 256 := by omega
  rw [transformByte, transformByte, shuffle_congr h, shuffle_congr hsucc]

theorem xformEffect_dout_ne (s : State) : (xformEffect s).dout ≠ zextByte (byteOperand s) :=
  fun h => transformByte_ne _ _ _ (zextByte_injective h)

/-- XFORM on the byte that an XFORM just produced, at the same position, gives back the operand (40_cipher.md R131). -/
theorem xformEffect_twice_dout (s : State) :
    (xformEffect (((xformEffect s).setDin (xformEffect s).dout).setPos s.pos)).dout = zextByte (byteOperand s) := by
  rw [xformEffect_dout, byteOperand_setPos, xformEffect_dout, byteOperand_setDin_zextByte]
  exact congrArg zextByte (transformByte_transformByte _ _ _)

/-- Settles O21: each session state by its own equation, and the corner cases by R125 and R127. -/
theorem xformTransformsOneByte : Obligations.XformTransformsOneByte := by
  refine fun s => ⟨fun hs => xformEffect_eq s ▸ exec_xform_keyed hs, exec_xform_failed, exec_xform_idle,
    fun len hlen => ?length, fun p hs hp => ?position, fun hs => ?twice, fun hs hkey hpos hdin => ?worked⟩
  case length => exact exec_of_not_wellFormed (i := .xform len) (beq_false_of_ne hlen) s
  case position =>
    exact ⟨_, _, exec_xform_keyed hs, exec_xform_keyed (s := s.setPos p) hs,
      congrArg zextByte (transformByte_congr hp (byteOperand s) s.key)⟩
  case twice =>
    rw [← byteOperand_eq_lowByte, ← zextByte_eq_zext]
    exact ⟨_, _, exec_xform_keyed hs, xformEffect_dout_ne s, exec_xform_keyed hs, xformEffect_twice_dout s⟩
  case worked =>
    have hlow : lowByte s = 0x5a := by rw [lowByte, hdin]; rfl
    have hbyte : zext (transformByte 0x5a 0 0x5a) = 0x000000f9 := by decide
    have hend : xformEffect s = { s with dout := 0x000000f9, pos := 2, errcode := .ok } := by
      rw [xformEffect_eq, hlow, hkey, hpos]
      exact hbyte ▸ rfl
    exact hend ▸ exec_xform_keyed hs

end Sys2Proof.Proofs

/-! ## Proofs: a payload's host program (40_cipher.md R129) -/

namespace Sys2Proof.Proofs

open Sys2Proof.Machine Sys2Proof.Claims

/-- The bytes of a payload transformed from payload index i on (40_cipher.md R129): what is left of
`payloadTransform` once i bytes are done. -/
def transformFrom (i : Nat) (payload : List Byte) (K : Byte) : List Byte :=
  payload.mapIdx fun j b => transformByte b (2 * (i + j)) K

theorem transformFrom_zero (payload : List Byte) (K : Byte) :
    transformFrom 0 payload K = payloadTransform payload K := by
  simp [transformFrom, payloadTransform]

theorem transformFrom_cons (i : Nat) (b : Byte) (payload : List Byte) (K : Byte) :
    transformFrom i (b :: payload) K = transformByte b (2 * i) K :: transformFrom (i + 1) payload K := by
  simp [transformFrom, List.mapIdx_cons, Nat.add_assoc, Nat.add_comm 1]

/-- The block is ready for the byte at payload index i: the session is keyed with K, and POS is 2i modulo 2^32. -/
structure AtIndex (K : Byte) (i : Nat) (s : State) : Prop where
  sess : s.sess = .keyed
  key : s.key = K
  pos : s.pos = BitVec.ofNat 32 (2 * i)

/-- XFORM at payload index i gives the source's byte, though POS wraps: 256 divides 2^32 (40_cipher.md R125). -/
theorem AtIndex.transformByte_pos {K : Byte} {i : Nat} {s : State} (h : AtIndex K i s) (b : Byte) :
    transformByte b s.pos.toNat s.key = transformByte b (2 * i) K := by
  rw [h.key, h.pos, BitVec.toNat_ofNat]
  exact transformByte_congr (Nat.mod_mod_of_dvd _ (by decide)) b K

/-- A step that completes a write gives the host nothing to read. -/
theorem readsSeen_succ_of_written {s t : State} (h : step s = .next (t.setBus .written)) (k : Nat) :
    Safety.readsSeen (k + 1) s = Safety.readsSeen k (t.setBus .written) :=
  readsSeen_succ_of_step h k

/-- The step of a command's own word runs the command, and then acknowledges. -/
theorem step_command {i : Instr} {s t : State} {rest : List HostEvent} (h : s.host = commandEvent (encode i) :: rest)
    (hexec : exec i (s.setHost rest) = .next t) : step s = .next (t.setBus .written) :=
  step_write_offset .cmd h ((commandWrite_encode i _).trans hexec)

/-- BEGIN in a keyed session takes the block to payload index 0 (40_cipher.md R130). -/
theorem begin_step {s : State} {rest : List HostEvent} (hs : s.sess = .keyed)
    (hhost : s.host = events [.cmd .begin none] ++ rest) :
    ∃ t, AtIndex s.key 0 t ∧ t.host = rest ∧
      ∀ k, Safety.readsSeen (k + 1) s = Safety.readsSeen k t ∧ core.run (k + 1) s = core.run k t := by
  have hbegin := step_command hhost (exec_begin_zero (s.setHost rest))
  exact ⟨((s.setHost rest).setPos 0).succeed.setBus .written, ⟨hs, rfl, rfl⟩, rfl,
    fun k => ⟨readsSeen_succ_of_written hbegin k, run_succ_of_step hbegin k⟩⟩

/-- Two writes and a third step: the host reads what the third step answers. -/
theorem write_write_step {s t u v : State} (ht : step s = .next (t.setBus .written))
    (hu : step (t.setBus .written) = .next (u.setBus .written)) (hv : step (u.setBus .written) = .next v) (k : Nat) :
    Safety.readsSeen (k + 3) s = Safety.readValue v.bus ++ Safety.readsSeen k v ∧
      core.run (k + 3) s = core.run k v := by
  constructor
  · rw [readsSeen_succ_of_written ht, readsSeen_succ_of_written hu, readsSeen_succ_of_step hv]
  · rw [run_succ_of_step ht, run_succ_of_step hu, run_succ_of_step hv]

/-- The state after `xf b`: XFORM's effect on the operand b, answered on the bus. -/
def afterXf (b : Byte) (rest : List HostEvent) (s : State) : State :=
  ((xformEffect (s.setDin (zextByte b))).setHost rest).setBus (.readData (xformEffect (s.setDin (zextByte b))).dout)

theorem afterXf_bus (b : Byte) (rest : List HostEvent) (s : State) :
    (afterXf b rest s).bus = .readData (zextByte (transformByte b s.pos.toNat s.key)) := by
  rw [afterXf, State.setBus_bus, xformEffect_dout, byteOperand_setDin_zextByte]
  rfl

/-- `xf b` in a keyed session: three steps to `afterXf`, in which the host reads the byte's transform. -/
theorem xf_steps {b : Byte} {s : State} {rest : List HostEvent} (hs : s.sess = .keyed)
    (hhost : s.host = events (xf b) ++ rest) (k : Nat) :
    Safety.readsSeen (k + 3) s =
        zextByte (transformByte b s.pos.toNat s.key) :: Safety.readsSeen k (afterXf b rest s) ∧
      core.run (k + 3) s = core.run k (afterXf b rest s) := by
  have hsteps := write_write_step (v := afterXf b rest s) (step_write_offset .din hhost rfl)
    (step_command (i := .xform 1) (rest := events [.rd .dout] ++ rest) rfl (exec_xform_keyed hs))
    (step_read_offset .dout rfl) k
  rw [afterXf_bus, Safety.readValue, List.singleton_append] at hsteps
  exact hsteps

theorem atIndex_afterXf {K : Byte} {i : Nat} {s : State} (h : AtIndex K i s) (b : Byte) (rest : List HostEvent) :
    AtIndex K (i + 1) (afterXf b rest s) where
  sess := h.sess
  key := h.key
  pos := by
    have hpos : (afterXf b rest s).pos = s.pos + 2 := rfl
    rw [hpos, h.pos, Nat.mul_succ, BitVec.ofNat_add]
    rfl

/-- The payload's program, by induction on the bytes still to come. -/
theorem payload_steps {K : Byte} {rest : List HostEvent} (payload : List Byte) :
    ∀ {i : Nat} {s : State}, AtIndex K i s → s.host = events (payload.flatMap xf) ++ rest →
      Safety.readsSeen (3 * payload.length) s = (transformFrom i payload K).map zextByte ∧
      ∃ t, core.run (3 * payload.length) s = .next t ∧ t.host = rest ∧ AtIndex K (i + payload.length) t := by
  induction payload with
  | nil => exact fun {i s} hs hhost => ⟨rfl, s, rfl, hhost, hs⟩
  | cons b payload ih =>
    intro i s hs hhost
    have hsplit : s.host = events (xf b) ++ (events (payload.flatMap xf) ++ rest) := by
      rw [hhost, List.flatMap_cons, events, List.map_append, List.append_assoc]
      rfl
    obtain ⟨hreads, hrun⟩ := xf_steps hs.sess hsplit (3 * payload.length)
    obtain ⟨hreads', t, hrun', hthost, ht⟩ := ih (atIndex_afterXf hs b _) rfl
    rw [List.length_cons, Nat.mul_succ, transformFrom_cons, List.map_cons, hreads, hreads', hrun, hrun',
      hs.transformByte_pos]
    exact ⟨rfl, t, rfl, hthost, by rwa [Nat.add_assoc, Nat.add_comm 1] at ht⟩

/-- Each byte of the payload transform by its index (40_cipher.md R129). -/
theorem payloadTransform_eq_map_range (payload : List Byte) (K : Byte) :
    payloadTransform payload K =
      (List.range payload.length).map fun i => transformByte (payload.getD i 0) (2 * i) K := by
  apply List.ext_getElem
  · simp [payloadTransform]
  · intro i hi _
    have hlt : i < payload.length := by simpa [payloadTransform] using hi
    simp [payloadTransform, hlt]

/-- Settles O47: BEGIN takes the block to index 0, and each byte's program takes it on by one. -/
theorem payloadTransformByCommands : Obligations.PayloadTransformByCommands := by
  intro s payload rest hs hhost
  obtain ⟨u, hu, huhost, hbegin⟩ := begin_step hs (hhost.trans (List.cons_append ..))
  obtain ⟨hreads, t, hrun, hthost, ht⟩ := payload_steps payload hu huhost
  obtain ⟨hreads', hrun'⟩ := hbegin (3 * payload.length)
  have hzext : zextByte = zext := funext zextByte_eq_zext
  rw [Nat.add_comm 1, hreads', hreads, hrun', hrun, transformFrom_zero, hzext]
  refine ⟨rfl, t, rfl, hthost, ht.key, ht.sess, ?pos, payloadTransform_eq_map_range payload s.key⟩
  case pos => rw [ht.pos, Nat.zero_add, BitVec.toNat_ofNat]

end Sys2Proof.Proofs

/-! ## Proofs: the recovery search (41_session_key.md R162 to R164) -/

namespace Sys2Proof.Proofs

open Sys2Proof.Machine Sys2Proof.Claims

/-- A candidate passes the one first byte that E takes it to: the transform undoes itself (41_session_key.md R163). -/
theorem transformByte_eq_self_iff (b c : Byte) : transformByte b 0 c = c ↔ checkMap c = b := by
  constructor
  · intro h
    have hinv := transformByte_transformByte b 0 c
    rwa [h] at hinv
  · rintro rfl
    exact transformByte_transformByte c 0 c

theorem passes_iff (b c : Byte) : passes b c = true ↔ transformByte b 0 c = c :=
  beq_iff_eq

theorem passes_eq_false_iff (b c : Byte) : passes b c = false ↔ transformByte b 0 c ≠ c :=
  beq_eq_false_iff_ne

/-- The search answers the least candidate that passes (41_session_key.md R165). -/
theorem searchKey_eq_some_iff (b c : Byte) :
    searchKey b = some c ↔
      transformByte b 0 c = c ∧ ∀ d : Byte, d.toNat < c.toNat → transformByte b 0 d ≠ d := by
  simp only [searchKey, find_candidates_some, passes_iff, passes_eq_false_iff]

/-- The search answers no key when no candidate passes (41_session_key.md R165). -/
theorem searchKey_eq_none_iff (b : Byte) : searchKey b = none ↔ ∀ c : Byte, transformByte b 0 c ≠ c := by
  simp only [searchKey, find_candidates_none, passes_eq_false_iff]

theorem payloadTransform_cons_head? (b : Byte) (payload : List Byte) (K : Byte) :
    (payloadTransform (b :: payload) K).head? = some (transformByte b 0 K) := by
  rw [payloadTransform, List.mapIdx_cons]
  rfl

/-- The empty payload has no first byte, so no candidate passes it (41_session_key.md R163). -/
theorem recoverKey_nil : recoverKey [] = none :=
  (find_candidates_none _).2 fun _ => rfl

/-- The search over a payload reads its first byte alone (41_session_key.md R163). -/
theorem recoverKey_cons (b : Byte) (payload : List Byte) : recoverKey (b :: payload) = searchKey b := by
  simp only [recoverKey, payloadTransform_cons_head?]
  rfl

/-- Settles O49: the search reads the first byte alone, and a candidate passes the byte E takes it to. -/
theorem recoveryDependsOnTheFirstByte : Obligations.RecoveryDependsOnTheFirstByte := by
  refine ⟨recoverKey_nil, fun b c => ?check, fun b payload c => ?found, fun b payload => ?exhausted⟩
  case check => exact (transformByte_eq_self_iff b c).trans eq_comm
  case found =>
    rw [recoverKey_cons, searchKey_eq_some_iff]
    simp only [Ne, transformByte_eq_self_iff, checkMap]
  case exhausted =>
    rw [recoverKey_cons, searchKey_eq_none_iff]
    simp only [Ne, transformByte_eq_self_iff, checkMap]

/-- No candidate passes a byte exactly when the search answers none (41_session_key.md R164). -/
theorem passCount_eq_zero_iff (b : Byte) : passCount b = 0 ↔ searchKey b = none := by
  rw [searchKey_eq_none_iff, passCount, List.count_eq_zero, List.mem_map]
  simp only [Ne, transformByte_eq_self_iff, mem_candidates, true_and, not_exists]

theorem passCount_eq_count_table (b : Byte) : passCount b = checkMapTable.count b := by
  rw [passCount, checkMap_table]

/-- How often each count of 41_session_key.md R164 occurs in the table of E. -/
theorem checkMapTable_counts :
    checkMapTable.dedup.length = 160 ∧
    (candidates.filter fun b => checkMapTable.count b == 0).length = 96 ∧
    (candidates.filter fun b => checkMapTable.count b == 1).length = 84 ∧
    (candidates.filter fun b => checkMapTable.count b == 2).length = 56 ∧
    (candidates.filter fun b => checkMapTable.count b == 3).length = 20 := by
  decide +kernel

/-- The examples of 41_session_key.md R164, where several candidates share a first byte. -/
theorem checkMapTable_count_examples :
    checkMapTable.count 0x00 = 0 ∧ checkMapTable.count 0x14 = 3 ∧ checkMapTable.count 0x3d = 3 := by
  decide +kernel

/-- The examples of 41_session_key.md R164 and R165. -/
theorem searchKey_examples :
    searchKey 0x00 = none ∧ searchKey 0x14 = some 0x00 ∧ searchKey 0x3d = some 0x17 ∧
    searchKey 0x5a = some 0xd9 ∧ searchKey 0xf9 = some 0x5a := by
  decide +kernel

end Sys2Proof.Proofs

/-! ## Proofs: SRST and LDKEY (41_session_key.md R170, R175) -/

namespace Sys2Proof.Proofs

open Sys2Proof.Machine Sys2Proof.Claims

/-- The state after a successful SRST (41_session_key.md R175). -/
def afterSrst (s : State) : State :=
  { s with key := 0, sess := .idle, pos := 0, trials := 0, err := false, errcode := .ok }

theorem exec_srst_afterSrst (s : State) : exec (.srst 0) s = .next (afterSrst s) := exec_srst_zero s

theorem afterSrst_afterSrst (s : State) : afterSrst (afterSrst s) = afterSrst s := rfl

/-- SRST ends at the reset values but for DIN and DOUT (70_reset_and_hazards.md R273). -/
theorem afterSrst_eq_hardwareReset (s : State) :
    afterSrst s = { hardwareReset s with din := s.din, dout := s.dout, bus := s.bus } := rfl

theorem readReg_status_afterSrst (s : State) : readReg .status (afterSrst s) = 0 :=
  BitVec.eq_of_toNat_eq (statusWord_toNat _)

/-- Settles O17: SRST writes constants alone, and they are the reset values. -/
theorem srstStartsANewSession : Obligations.SrstStartsANewSession := by
  refine fun s => ⟨exec_srst_afterSrst s, fun len hlen => ?length, ⟨_, exec_srst_afterSrst s, ?twice, ?status⟩,
    ?reset⟩
  case length => exact exec_of_not_wellFormed (i := .srst len) (beq_false_of_ne hlen) s
  case twice => rw [exec_srst_afterSrst, afterSrst_afterSrst]
  case status => exact readReg_status_afterSrst s
  case reset => rw [exec_srst_afterSrst, afterSrst_eq_hardwareReset]

theorem exec_ldkey_failed {s : State} (hs : s.sess = .failed) :
    exec (.ldkey 1) s = .next (s.raiseErr .sessionFailed) := by
  simp [exec, execLdkey, hs]

theorem exec_ldkey_keyed {s : State} (hs : s.sess = .keyed) : exec (.ldkey 1) s = .next (s.raiseErr .keyLocked) := by
  simp [exec, execLdkey, hs]

/-- Settles O19: each session state by its own equation. -/
theorem ldkeyLoadsTheKey : Obligations.LdkeyLoadsTheKey := by
  refine fun s => ⟨fun hs => ?idle, exec_ldkey_failed, exec_ldkey_keyed, fun len hlen => ?length⟩
  case idle =>
    rw [← byteOperand_eq_lowByte]
    exact exec_ldkey_idle hs
  case length => exact exec_of_not_wellFormed (i := .ldkey len) (beq_false_of_ne hlen) s

end Sys2Proof.Proofs

/-! ## Proofs: KEYREC (41_session_key.md R164 to R166) -/

namespace Sys2Proof.Proofs

open Sys2Proof.Machine Sys2Proof.Claims

theorem exec_keyrec_failed {s : State} (len : Len) (hs : s.sess = .failed) :
    exec (.keyrec len) s = .next (s.raiseErr .sessionFailed) := by
  simp [exec, execKeyrec, hs]

theorem exec_keyrec_keyed {s : State} (len : Len) (hs : s.sess = .keyed) :
    exec (.keyrec len) s = .next (s.raiseErr .keyLocked) := by
  simp [exec, execKeyrec, hs]

/-- An empty first payload is no search: the session fails after 0 trials (41_session_key.md R165). -/
theorem exec_keyrec_empty {s : State} (hs : s.sess = .idle) : exec (.keyrec 0) s = .next (keyNotFound 0 s) := by
  simp [exec, execKeyrec, hs]

theorem exec_keyrec_found {s : State} {len : Len} {c : Byte} (hs : s.sess = .idle) (hlen : len ≠ 0)
    (hkey : searchKey (lowByte s) = some c) : exec (.keyrec len) s = .next (keyFound c s) := by
  simp only [exec, execKeyrec, hs, if_neg hlen, byteOperand_eq_lowByte, hkey]

theorem exec_keyrec_exhausted {s : State} {len : Len} (hs : s.sess = .idle) (hlen : len ≠ 0)
    (hkey : searchKey (lowByte s) = none) : exec (.keyrec len) s = .next (keyNotFound 256 s) := by
  simp only [exec, execKeyrec, hs, if_neg hlen, byteOperand_eq_lowByte, hkey]

/-- `keyFound` in the words of the statements. -/
theorem keyFound_eq (c : Byte) (s : State) :
    keyFound c s = { s with
      key := c, sess := .keyed, dout := zext c, trials := BitVec.ofNat 9 (c.toNat + 1), errcode := .ok } := by
  have htrials : c.setWidth 9 + 1 = BitVec.ofNat 9 (c.toNat + 1) := by bv_omega
  rw [← zextByte_eq_zext, ← htrials]
  rfl

/-- Settles O20: each session state by its own equation, with the search's answer put into it. -/
theorem keyrecRecoversTheLeastKey : Obligations.KeyrecRecoversTheLeastKey := by
  refine fun len s => ⟨exec_keyrec_failed len, exec_keyrec_keyed len, fun hs hlen => ?empty,
    fun c hs hlen hpass hleast => ?found, fun hs hlen hnone => ?exhausted, fun q hq hs hlen hlow => ?examples,
    fun hs hlen hlow => ?zero⟩
  case empty => exact hlen ▸ exec_keyrec_empty hs
  case found =>
    rw [← keyFound_eq]
    exact exec_keyrec_found hs hlen ((searchKey_eq_some_iff _ _).2 ⟨hpass, hleast⟩)
  case exhausted => exact exec_keyrec_exhausted hs hlen ((searchKey_eq_none_iff _).2 hnone)
  case examples =>
    obtain ⟨-, h14, -, h5a, hf9⟩ := searchKey_examples
    have hkey : searchKey (lowByte s) = some (BitVec.ofNat 8 q.2) ∧ (BitVec.ofNat 8 q.2).toNat = q.2 := by
      rw [hlow]
      simp only [List.mem_cons, List.not_mem_nil, or_false] at hq
      rcases hq with rfl | rfl | rfl
      · exact ⟨h14, rfl⟩
      · exact ⟨h5a, rfl⟩
      · exact ⟨hf9, rfl⟩
    obtain ⟨hkey, hnat⟩ := hkey
    rw [exec_keyrec_found hs hlen hkey, keyFound_eq, zext, hnat]
  case zero =>
    obtain ⟨h00, -⟩ := searchKey_examples
    exact exec_keyrec_exhausted hs hlen (hlow ▸ h00)

/-- Settles O50, by the first payload byte: with none KEYREC does not search, and with one both search for it. -/
theorem keyrecRefinesRecoverKey : Obligations.KeyrecRefinesRecoverKey := by
  intro s len payload hs hlen hfirst
  cases payload with
  | nil =>
    obtain rfl : len = 0 := hlen.2 rfl
    rw [recoverKey_nil]
    exact ⟨_, exec_keyrec_empty hs, nofun, fun _ => ⟨rfl, rfl, rfl, rfl⟩⟩
  | cons b payload =>
    have hne : len ≠ 0 := fun h => nomatch hlen.1 h
    obtain rfl : lowByte s = b := hfirst b rfl
    rw [recoverKey_cons]
    cases hkey : searchKey (lowByte s) with
    | none => exact ⟨_, exec_keyrec_exhausted hs hne hkey, nofun, fun _ => ⟨rfl, rfl, rfl, rfl⟩⟩
    | some c =>
      refine ⟨_, exec_keyrec_found hs hne hkey, fun d hd => ?answered, nofun⟩
      case answered =>
        cases hd
        exact ⟨rfl, rfl, rfl, zextByte_eq_zext c⟩

/-- Settles O51: the counts from the table of E, and KEYREC by its own equation. -/
theorem checkMapIsNotOneToOne : Obligations.CheckMapIsNotOneToOne := by
  obtain ⟨hvalues, hnone, hone, htwo, hthree⟩ := checkMapTable_counts
  obtain ⟨hcount00, hcount14, hcount3d⟩ := checkMapTable_count_examples
  obtain ⟨-, hsearch14, hsearch3d, -⟩ := searchKey_examples
  unfold Obligations.CheckMapIsNotOneToOne
  simp only [passCount_eq_count_table, checkMap_table]
  refine ⟨hvalues, hnone, hone, htwo, hthree, fun s len hs hlen hcount => ?keyrec, hcount00,
    ⟨hcount14, by decide, by decide, by decide, hsearch14⟩, ⟨hcount3d, by decide, by decide, by decide, hsearch3d⟩⟩
  case keyrec =>
    rw [← passCount_eq_count_table, passCount_eq_zero_iff] at hcount
    exact ⟨_, exec_keyrec_exhausted hs hlen hcount, rfl⟩

/-- KEYREC does not read POS: its writes and a write of POS commute (41_session_key.md R166). -/
theorem exec_keyrec_setPos {s t : State} {len : Len} (h : exec (.keyrec len) s = .next t) (p : Word) :
    exec (.keyrec len) (s.setPos p) = .next (t.setPos p) := by
  cases h
  simp only [exec, execKeyrec, byteOperand_setPos, State.setPos_sess]
  cases s.sess with
  | idle =>
    simp only [apply_ite (State.setPos · p)]
    cases searchKey (byteOperand s) <;> rfl
  | keyed => rfl
  | failed => rfl

theorem keyrec_keeps_pos {s t : State} {len : Len} (h : exec (.keyrec len) s = .next t) : t.pos = s.pos := by
  rcases effect_pos (effect_of_exec h) with heq | hi | hi | ⟨hi, -⟩
  · exact heq
  all_goals cases hi

/-- Settles O39: KEYREC has no write of POS, no read of it, and a key that it finds passes. -/
theorem keyrecIgnoresPosition : Obligations.KeyrecIgnoresPosition := by
  intro len s p
  obtain ⟨t, ht, -⟩ := exec_effect (.keyrec len) s
  refine ⟨t, ht, keyrec_keeps_pos ht, fun hok => ?found, exec_keyrec_setPos ht p⟩
  case found =>
    obtain ⟨c, hkey, rfl⟩ := keyFound_of_exec ht hok
    rw [← byteOperand_eq_lowByte]
    exact transformByte_of_searchKey hkey

end Sys2Proof.Proofs

/-! ## Proofs: the locked and the failed session (41_session_key.md R168, R171) -/

namespace Sys2Proof.Proofs

open Sys2Proof.Machine Sys2Proof.Claims

/-- Settles O36: both commands by their own equations, and the key by `keyed_session_kept`. -/
theorem keyedSessionIsLocked : Obligations.KeyedSessionIsLocked := by
  intro s hs
  refine ⟨exec_ldkey_keyed hs, fun len => exec_keyrec_keyed len hs, fun t h hgoes => ?kept⟩
  case kept => exact (keyed_session_kept h hs).resolve_right hgoes

/-- Only a search that finds no key, or an empty payload, ends a KEYREC in KEY_NOT_FOUND. -/
theorem keyNotFound_of_exec {s t : State} {len : Len} (h : exec (.keyrec len) s = .next t)
    (hcode : t.errcode = .keyNotFound) : ∃ n, t = keyNotFound n s := by
  cases effect_of_exec h with
  | error c hc =>
    obtain rfl : c = .keyNotFound := hcode
    cases hc
  | found => cases hcode
  | empty => exact ⟨0, rfl⟩
  | exhausted => exact ⟨256, rfl⟩
  | _ => contradiction

/-- STATUS after KEY_NOT_FOUND: its code, ERR and a failed session (41_session_key.md R168). -/
theorem status_keyNotFound_toNat (n : BitVec 9) (s : State) : (readReg .status (keyNotFound n s)).toNat = 0x16 :=
  statusWord_toNat _

/-- A failed session stays failed until SRST or reset: LDKEY and KEYREC write in an idle session only. -/
theorem failed_session_kept {s t : State} (h : step s = .next t) (hs : s.sess = .failed) :
    t.sess = .failed ∨ nextIsReset s ∨ nextIsCommand s (.srst 0) := by
  rcases session_writers h with ⟨-, hsess, -⟩ | hcleared | ⟨hidle, -⟩
  · exact .inl (hsess.trans hs)
  · exact .inr hcleared
  · rw [hs] at hidle
    cases hidle

/-- The codec and BEGIN succeed in every session and keep its state (40_cipher.md R130, 42_char_codec.md R205, R210). -/
theorem exec_codec_begin_ok {i : Instr} (hi : i = .encchr 1 ∨ i = .decchr 4 ∨ i = .begin 0) (s : State) :
    ∃ t, exec i s = .next t ∧ t.errcode = .ok ∧ t.sess = s.sess := by
  rcases hi with rfl | rfl | rfl
  · exact ⟨_, exec_encchr_one s, rfl, rfl⟩
  · exact ⟨_, exec_decchr_four s, rfl, rfl⟩
  · exact ⟨_, exec_begin_zero s, rfl, rfl⟩

/-- Settles O37: what fails the session by KEYREC's own effect, what then runs by each command's equation, and what
leaves by `failed_session_kept`. -/
theorem keyNotFoundFailsTheSession : Obligations.KeyNotFoundFailsTheSession := by
  refine ⟨fun len s t h hcode => ?fails, fun s hs => ?runs, fun s t hs h hne => ?leaves⟩
  case fails =>
    obtain ⟨n, rfl⟩ := keyNotFound_of_exec h hcode
    exact ⟨rfl, rfl, rfl, status_keyNotFound_toNat n s⟩
  case runs =>
    refine ⟨exec_xform_failed hs, exec_ldkey_failed hs, fun len => exec_keyrec_failed len hs, fun i hi => ?codec⟩
    obtain ⟨t, ht, hok, hsess⟩ := exec_codec_begin_ok hi s
    exact ⟨t, ht, hok, hsess.trans hs⟩
  case leaves => exact (failed_session_kept h hs).resolve_left hne

end Sys2Proof.Proofs

/-! ## Proofs: ENCCHR and DECCHR (42_char_codec.md R205 to R207, R210) -/

namespace Sys2Proof.Proofs

open Sys2Proof.Machine Sys2Proof.Claims

/-- Settles O6: the codec's two commands are cases of the rule for every command. -/
theorem wrongLenHasNoOtherEffect : Obligations.WrongLenHasNoOtherEffect := by
  refine fun s => ⟨fun len hlen => ?encchr, fun len hlen => ?decchr, fun _ hi => exec_of_not_wellFormed hi s⟩
  case encchr => exact exec_of_not_wellFormed (i := .encchr len) (beq_false_of_ne hlen) s
  case decchr => exact exec_of_not_wellFormed (i := .decchr len) (beq_false_of_ne hlen) s

/-- Settles O22: the success by its own equation, in the statement's arithmetic. -/
theorem encchrEncodesOneCharacter : Obligations.EncchrEncodesOneCharacter := by
  intro s
  obtain ⟨hlen, -, -⟩ := wrongLenHasNoOtherEffect s
  refine ⟨?success, hlen⟩
  case success =>
    rw [← encodeChar_eq_wireWord, ← byteOperand_eq_lowByte]
    exact exec_encchr_one s

/-- Settles O23: the success by its own equation, in the statement's arithmetic. -/
theorem decchrDecodesOneCharacter : Obligations.DecchrDecodesOneCharacter := by
  intro s
  obtain ⟨-, hlen, -⟩ := wrongLenHasNoOtherEffect s
  refine ⟨?success, hlen⟩
  case success =>
    rw [← zextByte_decodeChar]
    exact exec_decchr_four s

/-- A state with another key, position and session, all else the same. -/
def withCipherState (k : Byte) (p : Word) (x : Sess) (s : State) : State := ((s.setKey k).setPos p).setSess x

@[simp] theorem byteOperand_withCipherState (k : Byte) (p : Word) (x : Sess) (s : State) :
    byteOperand (withCipherState k p x s) = byteOperand s := rfl

@[simp] theorem wireOperand_withCipherState (k : Byte) (p : Word) (x : Sess) (s : State) :
    wireOperand (withCipherState k p x s) = wireOperand s := rfl

/-- The codec does not read KEY, POS or SESS: its writes and a write of these commute (42_char_codec.md R207). -/
theorem exec_codec_withCipherState {i : Instr} {s t : State} {len : Len} (hi : i = .encchr len ∨ i = .decchr len)
    (h : exec i s = .next t) (k : Byte) (p : Word) (x : Sess) :
    exec i (withCipherState k p x s) = .next (withCipherState k p x t) := by
  rcases hi with rfl | rfl
  · cases h
    simp only [exec, execEncchr, byteOperand_withCipherState, apply_ite (withCipherState k p x)]
    rfl
  · cases h
    simp only [exec, execDecchr, wireOperand_withCipherState, apply_ite (withCipherState k p x)]
    rfl

/-- The codec does not write KEY, POS or SESS: an error keeps them, and a success writes DOUT (42_char_codec.md R207). -/
theorem codec_keeps_cipher_state {i : Instr} {s t : State} {len : Len} (hi : i = .encchr len ∨ i = .decchr len)
    (h : exec i s = .next t) : t.key = s.key ∧ t.pos = s.pos ∧ t.sess = s.sess := by
  rcases hi with rfl | rfl
  · cases effect_of_exec h with
    | error => exact ⟨rfl, rfl, rfl⟩
    | encchr => exact ⟨rfl, rfl, rfl⟩
    | _ => contradiction
  · cases effect_of_exec h with
    | error => exact ⟨rfl, rfl, rfl⟩
    | decchr => exact ⟨rfl, rfl, rfl⟩
    | _ => contradiction

/-- Settles O40: the codec has no write of the cipher's registers and no read of them. -/
theorem codecIsIndependentOfTheCipher : Obligations.CodecIsIndependentOfTheCipher := by
  intro len i s k p x hi
  obtain ⟨t, ht, -⟩ := exec_effect i s
  obtain ⟨hkey, hpos, hsess⟩ := codec_keeps_cipher_state hi ht
  exact ⟨t, ht, hkey, hpos, hsess, exec_codec_withCipherState hi ht k p x⟩

end Sys2Proof.Proofs

/-! ## Proofs: the codec's two functions (42_char_codec.md R200 to R204, R211) -/

namespace Sys2Proof.Proofs

open Sys2Proof.Machine Sys2Proof.Claims

/-- The template with payload bits 5 and 2 put in (42_char_codec.md R200, R202). -/
def templateWith (hi lo : Bool) : Byte :=
  templateByte ||| ((BitVec.ofBool hi).setWidth 8 <<< 5) ||| ((BitVec.ofBool lo).setWidth 8 <<< 2)

theorem encodeWireByte_eq_templateWith (c : Byte) (i : Nat) :
    encodeWireByte c i = templateWith (c.getLsbD (2 * i + 1)) (c.getLsbD (2 * i)) := rfl

theorem payloadBits_templateWith : ∀ hi lo : Bool,
    payloadBits (templateWith hi lo) = BitVec.ofBool hi ++ BitVec.ofBool lo := by
  decide

/-- A byte is the template with its own payload bits put in exactly when its other bits are the template's
(42_char_codec.md R204 (b)). -/
theorem templateWith_own_bits_iff : ∀ b : Byte,
    templateWith (b.getLsbD 5) (b.getLsbD 2) = b ↔ b &&& ~~~0x24#8 = 0x5B#8 := by
  decide

/-- Wire byte i of an encoding (42_char_codec.md R205). -/
theorem wireByte_encodeChar (c : Byte) {i : Nat} (hi : i < 4) : wireByte (encodeChar c) i = encodeWireByte c i := by
  rw [wireByte, encodeChar]
  interval_cases i
  all_goals
    simp (disch := decide) only [BitVec.extractLsb'_append_eq_of_le, BitVec.extractLsb'_append_eq_of_add_le]
    exact BitVec.extractLsb'_eq_self

theorem byte_eq_append_bits : ∀ c : Byte,
    (BitVec.ofBool (c.getLsbD 7) ++ BitVec.ofBool (c.getLsbD 6)) ++
      (BitVec.ofBool (c.getLsbD 5) ++ BitVec.ofBool (c.getLsbD 4)) ++
      (BitVec.ofBool (c.getLsbD 3) ++ BitVec.ofBool (c.getLsbD 2)) ++
      (BitVec.ofBool (c.getLsbD 1) ++ BitVec.ofBool (c.getLsbD 0)) = c := by
  decide

theorem decodeChar_encodeChar (c : Byte) : decodeChar (encodeChar c) = c := by
  have hbits : ∀ i, i < 4 → payloadBits (wireByte (encodeChar c) i) =
      BitVec.ofBool (c.getLsbD (2 * i + 1)) ++ BitVec.ofBool (c.getLsbD (2 * i)) := fun i hi => by
    rw [wireByte_encodeChar c hi, encodeWireByte_eq_templateWith, payloadBits_templateWith]
  rw [decodeChar, hbits 0 (by decide), hbits 1 (by decide), hbits 2 (by decide), hbits 3 (by decide)]
  exact byte_eq_append_bits c

/-- A word is made of its four wire bytes (20_memory.md R66). -/
theorem word_eq_append_wireBytes (w : Word) :
    wireByte w 0 ++ wireByte w 1 ++ wireByte w 2 ++ wireByte w 3 = w := by
  rw [wireByte, wireByte, wireByte, wireByte, BitVec.extractLsb'_append_extractLsb'_eq_extractLsb' (by decide),
    BitVec.extractLsb'_append_extractLsb'_eq_extractLsb' (by decide),
    BitVec.extractLsb'_append_extractLsb'_eq_extractLsb' (by decide)]
  exact BitVec.extractLsb'_eq_self

theorem word_ext_wireBytes {v w : Word} (h : ∀ i : Nat, i < 4 → wireByte v i = wireByte w i) : v = w := by
  rw [← word_eq_append_wireBytes v, ← word_eq_append_wireBytes w, h 0 (by decide), h 1 (by decide), h 2 (by decide),
    h 3 (by decide)]

/-- The character's bits 2i + 1 and 2i are the payload bits of wire byte i (42_char_codec.md R203). -/
theorem encodeWireByte_decodeChar (w : Word) {i : Nat} (hi : i < 4) :
    encodeWireByte (decodeChar w) i = templateWith ((wireByte w i).getLsbD 5) ((wireByte w i).getLsbD 2) := by
  rw [encodeWireByte_eq_templateWith]
  interval_cases i
  all_goals
    simp only [decodeChar, payloadBits, BitVec.getLsbD_append]
    simp

/-- Decoding loses what is not payload: encoding restores the word exactly when that is the template
(42_char_codec.md R204 (c)). -/
theorem encodeChar_decodeChar_iff (w : Word) :
    encodeChar (decodeChar w) = w ↔ ∀ i : Nat, i < 4 → wireByte w i &&& ~~~0x24#8 = 0x5B#8 := by
  have hbyte : ∀ i, i < 4 →
      (wireByte (encodeChar (decodeChar w)) i = wireByte w i ↔ wireByte w i &&& ~~~0x24#8 = 0x5B#8) :=
    fun i hi => by rw [wireByte_encodeChar _ hi, encodeWireByte_decodeChar w hi, templateWith_own_bits_iff]
  exact ⟨fun h i hi => (hbyte i hi).1 (congrArg (wireByte · i) h),
    fun h => word_ext_wireBytes fun i hi => (hbyte i hi).2 (h i hi)⟩

/-- Settles O52: an encoding's bytes are the template's because encoding its decoding restores it. -/
theorem codecLaws : Obligations.CodecLaws := by
  refine ⟨decodeChar_encodeChar, fun c => ?template, fun w => (encodeChar_decodeChar_iff w).1,
    fun w => (encodeChar_decodeChar_iff w).2, by decide, by decide⟩
  case template => exact (encodeChar_decodeChar_iff _).1 (congrArg encodeChar (decodeChar_encodeChar c))

/-- Two words with the same payload bits decode alike (42_char_codec.md R203). -/
theorem decodeChar_eq_of_payloadBits {v w : Word}
    (h : ∀ i : Nat, i < 4 → payloadBits (wireByte v i) = payloadBits (wireByte w i)) :
    decodeChar v = decodeChar w := by
  rw [decodeChar, decodeChar, h 0 (by decide), h 1 (by decide), h 2 (by decide), h 3 (by decide)]

theorem getLsbD_eq_of_and_eq {n k : Nat} {v w m : BitVec n} (h : v &&& m = w &&& m) (hk : m.getLsbD k = true) :
    v.getLsbD k = w.getLsbD k := by
  have hbit : (v &&& m).getLsbD k = (w &&& m).getLsbD k := congrArg (BitVec.getLsbD · k) h
  simpa [hk] using hbit

/-- Bits 5 and 2 of every wire byte are in the payload mask. -/
theorem payload_mask_bits : ∀ i : Nat, i < 4 →
    (0x24242424 : Word).getLsbD (24 - 8 * i + 5) = true ∧ (0x24242424 : Word).getLsbD (24 - 8 * i + 2) = true := by
  decide

/-- Decoding reads the eight payload bits alone (42_char_codec.md R211). -/
theorem decodeChar_congr {v w : Word} (h : v &&& 0x24242424 = w &&& 0x24242424) : decodeChar v = decodeChar w := by
  apply decodeChar_eq_of_payloadBits
  intro i hi
  obtain ⟨hhi, hlo⟩ := payload_mask_bits i hi
  rw [payloadBits_wireByte, payloadBits_wireByte, getLsbD_eq_of_and_eq h hhi, getLsbD_eq_of_and_eq h hlo]

/-- Settles O53: both words decode to one character, and DECCHR reads nothing else of DIN. -/
theorem templateBitsAreNotChecked : Obligations.TemplateBitsAreNotChecked := by
  intro s w h
  refine ⟨_, exec_decchr_four s, rfl, rfl, ?_⟩
  rw [exec_decchr_four, wireOperand, wireOperand, decodeChar_congr h]
  rfl

end Sys2Proof.Proofs

/-! ## Proofs: error outcomes and the idle step (60_exceptions.md R231, R235, R244) -/

namespace Sys2Proof.Proofs

open Sys2Proof.Machine Sys2Proof.Claims

theorem ne_keyNotFound_of_isPlainError {c : ErrCode} (hc : c.isPlainError = true) : c ≠ .keyNotFound := by
  rintro rfl
  cases hc

/-- A command that fails has raised its error and written nothing else, but for KEYREC's KEY_NOT_FOUND
(60_exceptions.md R231). -/
theorem effect_of_failed {i : Instr} {s t : State} (he : Effect i s t) (hne : t.errcode ≠ .ok) :
    (∃ c : ErrCode, c.isPlainError = true ∧ t = s.raiseErr c) ∨
      ∃ len, i = .keyrec len ∧ t = keyNotFound (if len = 0 then 0 else 256) s := by
  cases he with
  | error c hc => exact .inl ⟨c, hc, rfl⟩
  | empty hi => exact .inr ⟨0, hi, rfl⟩
  | exhausted len hi _ hlen => exact .inr ⟨len, hi, by rw [if_neg hlen]⟩
  | _ => exact absurd rfl hne

/-- `effect_of_failed` for a CMD write: a word that is no command raises ILLEGAL_CMD. -/
theorem commandWrite_of_failed {w : Word} {s t : State} (h : commandWrite w s = .next t) (hne : t.errcode ≠ .ok) :
    (∃ c : ErrCode, c.isPlainError = true ∧ t = s.raiseErr c) ∨
      ∃ len, w = encode (.keyrec len) ∧ t = keyNotFound (if len = 0 then 0 else 256) s := by
  rcases effect_of_commandWrite h with ⟨i, rfl, he⟩ | rfl
  · rcases effect_of_failed he hne with hplain | ⟨len, rfl, ht⟩
    · exact .inl hplain
    · exact .inr ⟨len, rfl, ht⟩
  · exact .inl ⟨.illegalCmd, rfl, rfl⟩

/-- Settles O32: `raiseErr` and `keyNotFound` are the two ways a CMD write can fail, and each says all it writes. -/
theorem errorsLeaveNoPartialResult : Obligations.ErrorsLeaveNoPartialResult := by
  intro w s t h hne
  rcases commandWrite_of_failed h hne with ⟨c, hc, rfl⟩ | ⟨len, hw, rfl⟩
  · exact .inl ⟨ne_keyNotFound_of_isPlainError hc, rfl⟩
  · exact .inr ⟨len, hw, rfl⟩

/-- A CMD write leaves the operand register, the host's events and the bus alone. -/
theorem commandWrite_frame {w : Word} {s t : State} (h : commandWrite w s = .next t) :
    t.din = s.din ∧ t.host = s.host ∧ t.bus = s.bus := by
  rcases commandWrite_next w s with ⟨i, u, -, he, hc⟩ | ⟨-, -, hc⟩
  · cases hc.symm.trans h
    exact exec_frame he
  · cases hc.symm.trans h
    exact ⟨rfl, rfl, rfl⟩

/-- Settles O33: the outcome by `commandWrite_outcome`, and `0x25` as the word of XFORM with LEN = 2. -/
theorem oneOutcomeByPriority : Obligations.OneOutcomeByPriority := by
  refine ⟨fun w s => ?outcome, fun s _ => ?wrongLen⟩
  case outcome =>
    obtain ⟨t, ht, hout⟩ := commandWrite_outcome w s
    exact ⟨t, ht, hout, commandWrite_frame ht⟩
  case wrongLen =>
    have hword : encode (.xform 2) = 0x00000025 := rfl
    rw [← hword, commandWrite_encode]
    exact exec_of_not_wellFormed rfl s

/-- Settles O12: the step with no event to come. -/
theorem quietStepHoldsState : Obligations.QuietStepHoldsState :=
  fun _ => step_of_host_nil

end Sys2Proof.Proofs

/-! ## Proofs: what a reset step does (70_reset_and_hazards.md) -/

namespace Sys2Proof.Proofs

open Sys2Proof.Machine Sys2Proof.Claims

/-- The whole step of a reset with no command in progress (70_reset_and_hazards.md R271). -/
theorem step_of_host_reset {s : State} {rest : List HostEvent} (hh : s.host = .reset :: rest) :
    step s = .next (hardwareReset (s.setHost rest)) :=
  step_of_host_cons hh

/-- The whole step of a reset that meets a command: the command's word is not read, and the fate of its write reaches
the bus alone (70_reset_and_hazards.md R272). -/
theorem step_of_host_resetDuringCommand {s : State} {rest : List HostEvent} {w : Word} {fate : CutFate}
    (hh : s.host = .resetDuringCommand w fate :: rest) :
    step s = .next ((hardwareReset (s.setHost rest)).setBus fate.reply) :=
  step_of_host_cons hh

/-- The bus is no register of the reset values. -/
theorem atReset_setBus {s : State} (h : atReset s) (b : BusReply) : atReset (s.setBus b) := h

/-- Settles O15: each reset event by its own step, which is a hardware reset but for the bus. -/
theorem resetSetsEveryRegister : Obligations.ResetSetsEveryRegister := by
  refine ⟨fun s hr => ?anyReset, fun s rest hh => ?resetAlone⟩
  case anyReset =>
    obtain ⟨rest, hh | ⟨w, fate, hh⟩⟩ := hr
    · exact ⟨_, step_of_host_reset hh, atReset_hardwareReset _⟩
    · exact ⟨_, step_of_host_resetDuringCommand hh, atReset_setBus (atReset_hardwareReset _) _⟩
  case resetAlone =>
    exact ⟨_, step_of_host_reset hh, atReset_hardwareReset _, hardwareReset_host _⟩

/-- Settles O16: the step is a hardware reset with the fate's answer on the bus, whatever the command word. -/
theorem resetDuringCommandWins : Obligations.ResetDuringCommandWins := by
  intro s rest w fate hh
  refine ⟨_, step_of_host_resetDuringCommand hh, atReset_setBus (atReset_hardwareReset _) _, rfl, ?berr, ?dropped⟩
  case berr => rintro rfl; rfl
  case dropped => rintro rfl; rfl

end Sys2Proof.Proofs
